-- ==== Sys2Proof/Word.lean ====
section
/-! DEFINITION. The data words of the block: a transfer unit, a pixel, a command word, an internal action label. -/

namespace Sys2Proof

/-- A transfer unit: one 8-bit pattern the serializer sends (R8, R18). -/
abbrev TxUnit := BitVec 8

/-- One channel of a pixel, an unsigned 8-bit value (R18). -/
abbrev Channel := BitVec 8

/-- A HOST command word, and a response word: 64 bits (R60, R64). -/
abbrev CommandWord := BitVec 64

/-- An internal action label `EV`: 4 bits (R65). -/
abbrev Label := BitVec 4

/-- The zero unit `Z0 = 0x00` (R18, R19). -/
def z0 : TxUnit := 0x00#8

/-- A pixel: three unsigned 8-bit channels, no alpha (R18, R30). -/
structure Pixel where
  r : Channel
  g : Channel
  b : Channel
deriving DecidableEq, Repr, Inhabited

/-- One half of the double buffer: `H = 24` units (R7). -/
abbrev HalfUnits := Vector TxUnit 24

end Sys2Proof
end

