-- ==== Sys2Proof/Config.lean ====
section
/-! DEFINITION. The block's build-time parameters (R5 to R11), the checks that refuse a bad
configuration (R16, R165), and the free values the spec leaves open. -/

namespace Sys2Proof

/-- The timing parameters of R11, each a number of one common unit of time that the spec leaves open.
No step reads them. DESIGN CHOICE, log entry 17. -/
structure Timing where
  tSub : Nat
  tLatch : Nat
  t0hMin : Nat
  t0hMax : Nat
  t1hMin : Nat
  t1hMax : Nat
  t0lMin : Nat
  t0lMax : Nat
  t1lMin : Nat
  t1lMax : Nat
deriving DecidableEq, Repr, Inhabited

/-- The protocol bit period `T_UNIT = 8*T_SUB` (R11). -/
def Timing.tUnit (t : Timing) : Nat := 8 * t.tSub

/-- The parameters as a builder gives them, legal or not (R5, R9, R10, R11). -/
structure Params where
  /-- Number of pixels of the frame buffer (R5). -/
  N : Nat
  /-- The unit that encodes a protocol 0 bit (R9). -/
  CODE0 : TxUnit
  /-- The unit that encodes a protocol 1 bit (R9). -/
  CODE1 : TxUnit
  /-- `RESET_REFILLS`: refills that fill a half with zeros before the first LED (R10). -/
  R : Nat
  /-- The timing parameters, which no step reads (R11). -/
  timing : Timing
deriving DecidableEq, Repr, Inhabited

/-- `ones(k) ++ zeros(8-k)`, read most significant bit first (R9, R14). -/
def pulse (k : Nat) : TxUnit := BitVec.allOnes 8 <<< (8 - k)

/-- R5: `1 <= N <= 65534`. -/
def Params.lengthOk (p : Params) : Bool := decide (1 ≤ p.N ∧ p.N ≤ 65534)

/-- R9: `CODE0 = pulse k0` and `CODE1 = pulse k1` for some `1 <= k0 < k1 <= 7`. -/
def Params.codesOk (p : Params) : Bool :=
  (List.range 8).any fun k0 => (List.range 8).any fun k1 =>
    decide (1 ≤ k0 ∧ k0 < k1 ∧ k1 ≤ 7) && p.CODE0 == pulse k0 && p.CODE1 == pulse k1

/-- R10: `0 <= R <= 255`. -/
def Params.resetRefillsOk (p : Params) : Bool := decide (p.R ≤ 255)

/-- Well-formedness of a configuration: R5, R9 and R10, and nothing else (R16, R172). R165's check takes R11 in too:
`Config.buildConforming`. DEDUCED, log entry 7. -/
def Params.wf (p : Params) : Bool := p.lengthOk && p.codesOk && p.resetRefillsOk

/-- A configuration that passed R16's check; the block exists only for these. -/
structure Config extends Params where
  ok : toParams.wf = true
deriving DecidableEq, Repr

/-- Why a configuration is refused at build time (R16, R165 item 1). Raised by `Config.build` and
`Config.buildConforming` only; safe, since no block is given out for such a configuration. -/
inductive BuildRefusal where
  /-- `N` is outside `1..65534` (R5). -/
  | badLength
  /-- `CODE0` or `CODE1` is not of the form R9 requires. -/
  | badCodes
  /-- `R` is above 255 (R10). -/
  | badResetRefills
  /-- The reset length or a code misses the timing constraints (R11). Raised by `Config.buildConforming` only. -/
  | badTiming
deriving DecidableEq, Repr

/-- Building the block: the parameters become its configuration, or are refused by name (R16). -/
def Config.build (p : Params) : Except BuildRefusal Config :=
  if h : p.wf = true then .ok { toParams := p, ok := h }
  else if p.lengthOk = false then .error .badLength
  else if p.codesOk = false then .error .badCodes
  else .error .badResetRefills

/-- `RESET_UNITS = 48 + 24*R` (R10). -/
def Params.resetUnits (p : Params) : Nat := 48 + 24 * p.R

/-- How many sub-bit periods a code is high: `HIGH0 = k0`, `HIGH1 = k1` (R9). -/
def highTime (c : TxUnit) : Nat := (List.range 8).countP fun i => c.getLsbD i

/-- `lo <= x <= hi`. -/
def inWindow (lo hi x : Nat) : Bool := decide (lo ≤ x ∧ x ≤ hi)

/-- The timing constraints a conforming configuration satisfies (R11). No step reads this; `Config.buildConforming`
checks it. -/
def Params.conforms (p : Params) : Bool :=
  decide (p.timing.tLatch < p.resetUnits * p.timing.tUnit)
  && inWindow p.timing.t0hMin p.timing.t0hMax (highTime p.CODE0 * p.timing.tSub)
  && inWindow p.timing.t0lMin p.timing.t0lMax ((8 - highTime p.CODE0) * p.timing.tSub)
  && inWindow p.timing.t1hMin p.timing.t1hMax (highTime p.CODE1 * p.timing.tSub)
  && inWindow p.timing.t1lMin p.timing.t1lMax ((8 - highTime p.CODE1) * p.timing.tSub)

/-- Building the block for correct frames: a configuration that breaks R5, R9, R10 or R11 is refused (R165 item 1,
U14). DEDUCED that this check stands beside `Config.build`, which leaves R11 out, log entry 7. -/
def Config.buildConforming (p : Params) : Except BuildRefusal Config :=
  match Config.build p with
  | .ok c => if p.conforms then .ok c else .error .badTiming
  | .error e => .error e

/-- The smallest `R` that meets the latch constraint: `max(0, floor(T_LATCH / (24*T_UNIT)) - 1)` (R171). -/
def Timing.minResetRefills (t : Timing) : Nat := t.tLatch / (24 * t.tUnit) - 1

/-- One well-formed configuration, used only to show that the type is inhabited: no step, no reset and
no statement reads its values. -/
abbrev Config.inhabited : Inhabited Config :=
  ⟨{ N := 1, CODE0 := pulse 1, CODE1 := pulse 2, R := 0, timing := default, ok := by decide }⟩

/-- Some well-formed configuration, about which nothing is known (no body). -/
opaque Config.someBuild [Inhabited Config] : Config

/-- The configuration the block of `State.reset` was built with: R5, R9, R10 and R11 leave it open, so it
is a constant nothing constrains beyond `Params.wf`.
DESIGN CHOICE (safe), log entry 1. -/
def Config.built : Config := @Config.someBuild Config.inhabited

/-- Free value: `draw_i` of the RESET with the given number, for pixel `i` (R160, R162).
DESIGN CHOICE (safe), log entry 2. -/
opaque Config.fbDraw (resetNumber i : Nat) : Pixel

/-- An action the block takes on its own, by SER (`emit`) or by RFL (R12). -/
inductive OwnAction where
  | emit
  | refillHt
  | refillTc
deriving DecidableEq, Repr, Inhabited

/-- Free value: whose turn is the `k`-th turn that the outside leaves to the block. The order of the
agents is open (R12, R52, R114).
DESIGN CHOICE (safe), log entry 3. -/
opaque Config.freeTurn (k : Nat) : OwnAction

end Sys2Proof
end

