-- ==== Sys2Proof/Syntax.lean ====
section
/-! DEFINITION. The instructions: one constructor per row of spec/opcode_table.json, five HOST commands and
four internal actions; and the two kinds of word they are read from. -/

namespace Sys2Proof

/-- The commands of R82 with ILLEGAL (R88), and the internal actions of R65. -/
inductive Instr where
  /-- HOST starts a transmission (R83). -/
  | transmit
  /-- HOST writes pixel `idx` (R84). -/
  | wrpix (idx : BitVec 16) (p : Pixel)
  /-- HOST reads pixel `idx` (R85). -/
  | rdpix (idx : BitVec 16)
  /-- HOST reads STATUS (R86). -/
  | rdstat
  /-- Any other command word, kept whole (R88). -/
  | illegal (w : CommandWord)
  /-- SER sends one unit (R103). -/
  | emit
  /-- RFL services the half-transfer event (R108). -/
  | refillHt
  /-- RFL services the transfer-complete event (R109). -/
  | refillTc
  /-- The reset input (R160). -/
  | reset
deriving DecidableEq, Repr

/-- What selects a step from outside: a command word on the command port (R60), or the label of an internal
action (R65). A command word cannot produce a label, nor HOST issue one. -/
inductive Input where
  | command (w : CommandWord)
  | label (ev : Label)
deriving DecidableEq, Repr

end Sys2Proof
end

