-- ==== Sys2Proof/WellFormed.lean ====
section
/-! DEFINITION. Which instructions have an encoding. Every field value of TRANSMIT, WRPIX, RDPIX and RDSTAT is
legal as an encoding (R63); `illegal w` stands for a word only if R62 calls `w` ILLEGAL. -/

namespace Sys2Proof

/-- Whether bits `lo .. lo+len-1` of a command word are all zero. -/
def fieldZero (w : CommandWord) (lo len : Nat) : Bool := w.extractLsb' lo len == 0#len

/-- The OP field, bits 63:60 (R60). -/
def opField (w : CommandWord) : BitVec 4 := w.extractLsb' 60 4

/-- R61's must-be-zero fields of the command an OP selects, as one test. An OP that selects no command
has none. -/
def mustBeZeroOk (w : CommandWord) : Bool :=
  if opField w == 0x1#4 || opField w == 0x4#4 then
    fieldZero w 40 20 && fieldZero w 24 16 && fieldZero w 16 8 && fieldZero w 8 8 && fieldZero w 0 8
  else if opField w == 0x2#4 then fieldZero w 40 20
  else if opField w == 0x3#4 then
    fieldZero w 40 20 && fieldZero w 16 8 && fieldZero w 8 8 && fieldZero w 0 8
  else true

/-- R62: OP is 0x0 or in 0x5..0xF, or a field that must be zero is not. -/
def isIllegalWord (w : CommandWord) : Bool :=
  opField w == 0x0#4 || decide (0x5#4 ≤ opField w) || !mustBeZeroOk w

/-- Whether an instruction stands for a word of its encoding. -/
def Instr.wf : Instr → Bool
  | .transmit => true
  | .wrpix _ _ => true
  | .rdpix _ => true
  | .rdstat => true
  | .illegal w => isIllegalWord w
  | .emit => true
  | .refillHt => true
  | .refillTc => true
  | .reset => true

end Sys2Proof
end

