-- ==== Sys2Proof/Decode.lean ====
section
/-! DEFINITION. The decoder (R61, R65, R69) and the encoder (R60, R61, R65). -/

namespace Sys2Proof

/-- The pixel in bits 23:0 of a command word: red 23:16, green 15:8, blue 7:0 (R60, R63). -/
def pixelField (w : CommandWord) : Pixel :=
  { r := w.extractLsb' 16 8, g := w.extractLsb' 8 8, b := w.extractLsb' 0 8 }

/-- The IDX field, bits 39:24 (R60, R63). -/
def idxField (w : CommandWord) : BitVec 16 := w.extractLsb' 24 16

/-- The decode function of R69. It is total: a word that matches no command is ILLEGAL (R68). RSV is bits 59:40, as
R60 gives it. DEDUCED where the opcode table's mask differs, log entry 10. -/
def decodeCommand (w : CommandWord) : Instr :=
  let op := w.extractLsb' 60 4
  let rsv := w.extractLsb' 40 20
  let idx := w.extractLsb' 24 16
  let rgb := w.extractLsb' 0 24
  if op = 0x1#4 ∧ rsv = 0#20 ∧ idx = 0#16 ∧ rgb = 0#24 then .transmit
  else if op = 0x2#4 ∧ rsv = 0#20 then .wrpix (idxField w) (pixelField w)
  else if op = 0x3#4 ∧ rsv = 0#20 ∧ rgb = 0#24 then .rdpix (idxField w)
  else if op = 0x4#4 ∧ rsv = 0#20 ∧ idx = 0#16 ∧ rgb = 0#24 then .rdstat
  else .illegal w

/-- Why an input is rejected. -/
inductive Reject where
  /-- `EV` names no action: 0x0, or 0x5..0xF (R65). -/
  | noAction (ev : Label)
deriving DecidableEq, Repr

/-- The action an `EV` label names (R65). -/
def decodeLabel (ev : Label) : Except Reject Instr :=
  if ev = 0x1#4 then .ok .emit
  else if ev = 0x2#4 then .ok .refillHt
  else if ev = 0x3#4 then .ok .refillTc
  else if ev = 0x4#4 then .ok .reset
  else .error (.noAction ev)

/-- The instruction an input selects. -/
def decode : Input → Except Reject Instr
  | .command w => .ok (decodeCommand w)
  | .label ev => decodeLabel ev

/-- A command word built from its fields, most significant first: OP, RSV = 0, IDX, RED, GREEN, BLUE (R60). -/
def commandWord (op : BitVec 4) (idx : BitVec 16) (p : Pixel) : CommandWord :=
  op ++ 0#20 ++ idx ++ p.r ++ p.g ++ p.b

/-- The pixel field of a command that takes no pixel: zeros (R61). -/
def noPixel : Pixel := { r := 0, g := 0, b := 0 }

/-- The input a well-formed instruction is encoded as (R60, R61, R65). -/
def encode : Instr → Input
  | .transmit => .command (commandWord 0x1#4 0 noPixel)
  | .wrpix idx p => .command (commandWord 0x2#4 idx p)
  | .rdpix idx => .command (commandWord 0x3#4 idx noPixel)
  | .rdstat => .command (commandWord 0x4#4 0 noPixel)
  | .illegal w => .command w
  | .emit => .label 0x1#4
  | .refillHt => .label 0x2#4
  | .refillTc => .label 0x3#4
  | .reset => .label 0x4#4

/-- The input that the opcode table's word `w` of `nbits` bits stands for: a row of at most one byte is a 4-bit
`EV` label, whose container's high nibble is not part of it; a longer row is a command word.
DESIGN CHOICE, log entry 9. -/
def tableInput (nbits w : Nat) : Input :=
  if nbits ≤ 8 then .label (BitVec.ofNat 4 w) else .command (BitVec.ofNat 64 w)

/-- What the decoder reads from a word numbered as spec/opcode_table.json numbers it. -/
def decodeTableWord (nbits w : Nat) : Option Instr := (decode (tableInput nbits w)).toOption

end Sys2Proof
end

