-- ==== Sys2Proof/Machine/State.lean ====
section
/-! DEFINITION. The state of the block (R20), the observations of its outputs (R31, R64), what the outside and the
schedule have put next, the reasons a step can stop, and the state after the power-on RESET (R160). -/

namespace Sys2Proof.Machine

/-- The frame buffer `FB[0..N-1]`: the pixel of index `i` stands at position `i` (R30, R40). DESIGN CHOICE, log entry 11. -/
abbrev Memory := List Pixel

/-- A half of the double buffer: half 0 is `BUF[0..23]`, half 1 is `BUF[24..47]` (R25). -/
inductive Half where
  | first
  | second
deriving DecidableEq, Repr

/-- The double buffer `BUF[0..47]`, as its two halves (R25). -/
structure Buf where
  first : HalfUnits
  second : HalfUnits
deriving DecidableEq, Repr

/-- A record of the output line's observation (R31). -/
inductive Record where
  /-- EMIT sent this unit. -/
  | unit (u : TxUnit)
  /-- A TRANSMIT was accepted. -/
  | start
  /-- A RESET after power-on. -/
  | reset
deriving DecidableEq, Repr

/-- The CODE of a response (R64). -/
inductive RespCode where
  | ok
  | errBounds
  | errBusy
  | errIllegal
deriving DecidableEq, Repr

/-- The response to one HOST command (R64). -/
structure Response where
  code : RespCode
  data : BitVec 32
deriving DecidableEq, Repr

/-- The four sticky faults (R130). -/
inductive FaultBit where
  | startBusy
  | fbWriteBusy
  | underrun
  | illegalCmd
deriving DecidableEq, Repr

/-- Why a step stops. Each is R15's `require` that does not hold: the agent has no step in that state (it is
stuck, and no fault bit is raised). Safe: no successor state is claimed. DESIGN CHOICE, log entry 4. -/
inductive Fault where
  /-- Raised by EMIT while `active = 0` (R103). -/
  | serDisabled
  /-- Raised by REFILL_HT while `active = 0` or `pend_ht = 0` (R108). -/
  | refillHtDisabled
  /-- Raised by REFILL_TC while `active = 0` or `pend_tc = 0` (R109). -/
  | refillTcDisabled
deriving DecidableEq, Repr

/-- Why the model gives a step no meaning. -/
inductive Refusal where
  /-- An instruction without a meaning; safe. No arm of `exec` answers it. -/
  | notModelled (mnemonic : String)
  /-- Raised by `step` when the next input is a label that names no action (R65); safe. Log entry 8. -/
  | noAction (ev : Label)
deriving DecidableEq, Repr

/-- The block's state. -/
structure State where
  /-- The build-time configuration (R36). It is not state of the block (R20): it is carried here so that a
  statement about every state is one about every configuration; no step writes it. DESIGN CHOICE, log entry 1. -/
  cfg : Config
  /-- A transmission is running (R21). -/
  active : Bool
  /-- Index of the next pixel to encode (R23). -/
  ledIndex : BitVec 16
  /-- Refills still to be spent in the reset phase (R24). -/
  resetLeft : BitVec 8
  /-- The double buffer (R25). -/
  buf : Buf
  /-- SER's read position, 0..47 (R26). -/
  rp : Fin 48
  /-- The half-transfer event is pending (R27). -/
  pendHt : Bool
  /-- The transfer-complete event is pending (R27). -/
  pendTc : Bool
  /-- The last transmission has stopped (R28). -/
  done : Bool
  /-- Sticky fault F_ILLEGAL_CMD (R29). -/
  fIllegalCmd : Bool
  /-- Sticky fault F_START_BUSY (R29). -/
  fStartBusy : Bool
  /-- Sticky fault F_FB_WRITE_BUSY (R29). -/
  fFbWriteBusy : Bool
  /-- Sticky fault F_UNDERRUN (R29). -/
  fUnderrun : Bool
  /-- The frame buffer (R30). -/
  fb : Memory
  /-- The observation of the output line, oldest record first (R31). -/
  wire : List Record
  /-- The observation of the command port: the response to each HOST command so far, oldest first (R64, R80).
  The model's own field; DESIGN CHOICE, log entry 5. -/
  responses : List Response
  /-- What comes next from outside and from the schedule, first one first. The model's own field;
  DESIGN CHOICE, log entry 3. -/
  agenda : List Input
  /-- How many turns the outside has left to the block; the argument of the free value `Config.freeTurn`.
  The model's own field; DESIGN CHOICE, log entry 3. -/
  turns : Nat
  /-- The number of the last RESET, counted from 0 at power-on; an argument of the free value `Config.fbDraw`.
  The model's own field; DESIGN CHOICE, log entry 2. -/
  epoch : Nat
deriving DecidableEq, Repr

/-- The frame buffer a RESET leaves: an arbitrary draw for each of the `N` pixels (R160, R162). -/
def drawnFrame (n epoch : Nat) : Memory := (List.range n).map (Config.fbDraw epoch)

/-- A double buffer of zero units (R160). -/
def zeroBuf : Buf := { first := Vector.replicate 24 z0, second := Vector.replicate 24 z0 }

/-- The state right after the power-on RESET of a block built with `c` (R160, R20). -/
def State.powerOn (c : Config) : State :=
  { cfg := c
    active := false
    ledIndex := 0
    resetLeft := 0
    buf := zeroBuf
    rp := 0
    pendHt := false
    pendTc := false
    done := false
    fIllegalCmd := false
    fStartBusy := false
    fFbWriteBusy := false
    fUnderrun := false
    fb := drawnFrame c.N 0
    wire := []
    responses := []
    agenda := []
    turns := 0
    epoch := 0 }

/-- The state right after the power-on RESET (R160). -/
def State.reset : State := State.powerOn Config.built

end Sys2Proof.Machine
end

