-- ==== Sys2Proof/Machine/Ops.lean ====
section
/-! DEFINITION. The named operations over the state: the frame buffer, the double buffer, the event flags, the
observations, raising a fault bit, and taking the next input. -/

namespace Sys2Proof.Machine

/-! ### The frame buffer (pixel space, R40) -/

/-- The frame buffer's one form: exactly `N` pixels, so that the positions are the indices `0..N-1` and no index
of the pixel space is unlisted (R30). -/
def Memory.wf (n : Nat) (m : Memory) : Bool := m.length == n

/-- `FB[i] <- p` for an index of the pixel space: all 24 bits in one step (R48). -/
def Memory.write (m : Memory) (i : Nat) (p : Pixel) : Memory := m.set i p

/-- `FB[i]` (R15). In a state whose list is too short, which no run reaches, the pixel is the free value of the
last RESET's draw. DESIGN CHOICE (safe), log entry 11. -/
def State.pixel (s : State) (i : Nat) : Pixel := s.fb.getD i (Config.fbDraw s.epoch i)

/-- The bounds check of R40: an index `i >= N` addresses nothing. -/
def State.inBounds (s : State) (idx : BitVec 16) : Bool := decide (idx.toNat < s.cfg.N)

/-- WRPIX's write of the frame buffer. -/
def State.writePixel (s : State) (i : Nat) (p : Pixel) : State := { s with fb := s.fb.write i p }

/-! ### The double buffer (unit space, R41) -/

/-- `BUF[j]` (R15, R25). -/
def Buf.unit (b : Buf) (j : Fin 48) : TxUnit :=
  if h : j.val < 24 then b.first[j.val] else b.second[j.val - 24]

/-- `base = 24 * k` (R104). -/
def Half.base : Half → Nat
  | .first => 0
  | .second => 24

/-- Whether unit `j` stands in half `k` (R25). -/
def Half.holds (k : Half) (j : Fin 48) : Bool := decide (k.base ≤ j.val ∧ j.val < k.base + 24)

/-- Rewriting one whole half: `BUF[24*k + u] <- us[u]` for `u` in 0..23 (R104). -/
def Buf.writeHalf (b : Buf) : Half → HalfUnits → Buf
  | .first, us => { b with first := us }
  | .second, us => { b with second := us }

/-- A half of zero units. -/
def zeroHalf : HalfUnits := Vector.replicate 24 z0

/-- `(rp + 1) mod 48` (R26, R112). -/
def nextRp (rp : Fin 48) : Fin 48 := ⟨(rp.val + 1) % 48, Nat.mod_lt _ (by decide)⟩

/-- The half whose last unit stands at `rp`: the first half's at 23, the second half's at 47 (R103). -/
def halfEndingAt (rp : Fin 48) : Option Half :=
  if rp.val = 23 then some .first else if rp.val = 47 then some .second else none

/-! ### Event flags (R27, R137) -/

/-- `pend_ht` for the first half, `pend_tc` for the second (R104). -/
def State.pending (s : State) : Half → Bool
  | .first => s.pendHt
  | .second => s.pendTc

/-- Sets or clears a half's pending flag. -/
def State.setPending (s : State) (h : Half) (v : Bool) : State :=
  match h with
  | .first => { s with pendHt := v }
  | .second => { s with pendTc := v }

/-! ### Raising a fault (R15, R130, R142) -/

/-- `raise Fault(F)`: sets the sticky bit and does nothing else. Nothing is saved, no mode changes and control
goes nowhere (R142); there is no return (R143), and only RESET clears the bit (R131). -/
def State.raise (s : State) : FaultBit → State
  | .startBusy => { s with fStartBusy := true }
  | .fbWriteBusy => { s with fFbWriteBusy := true }
  | .underrun => { s with fUnderrun := true }
  | .illegalCmd => { s with fIllegalCmd := true }

/-! ### Observations -/

/-- `WIRE <- WIRE ++ [r]` (R15, R31). -/
def State.record (s : State) (r : Record) : State := { s with wire := s.wire ++ [r] }

/-- `respond(code, data)`: ends a HOST command with its response (R15, R64). -/
def State.respond (s : State) (code : RespCode) (data : BitVec 32) : State :=
  { s with responses := s.responses ++ [{ code := code, data := data }] }

/-! ### The next step's agent (R12, R52) -/

/-- Whether an own action is enabled: R103's, R108's and R109's `require`. -/
def State.enabled (s : State) : OwnAction → Bool
  | .emit => s.active
  | .refillHt => s.active && s.pendHt
  | .refillTc => s.active && s.pendTc

/-- The instruction of an own action. -/
def ownInstr : OwnAction → Instr
  | .emit => .emit
  | .refillHt => .refillHt
  | .refillTc => .refillTc

/-- What the next step is to do. -/
inductive Fetched where
  /-- Run this instruction in this state. -/
  | run (i : Instr) (s : State)
  /-- No agent takes a step in this turn. -/
  | pass (s : State)
  /-- The next input is a label that names no action (R65). -/
  | reject (ev : Label)

/-- Takes the next input off the agenda. -/
def State.dropInput (s : State) : State := { s with agenda := s.agenda.tail }

/-- Counts a turn left to the block. -/
def State.countTurn (s : State) : State := { s with turns := s.turns + 1 }

/-- Chooses the next step: the agenda's first input if there is one; else the block is left a turn, which goes to
the agent that the free value names, and passes if that agent has no step (R12, R13, R15).
DESIGN CHOICE, log entry 3. -/
def State.fetch (s : State) : Fetched :=
  match s.agenda with
  | inp :: _ =>
    match decode inp with
    | .ok i => .run i s.dropInput
    | .error (.noAction ev) => .reject ev
  | [] =>
    if s.enabled (Config.freeTurn s.turns) then .run (ownInstr (Config.freeTurn s.turns)) s.countTurn
    else .pass s.countTurn

/-- Puts an input in front of all others, so that the next step takes it. -/
def State.pushInput (s : State) (inp : Input) : State := { s with agenda := inp :: s.agenda }

end Sys2Proof.Machine
end

