-- ==== Sys2Proof/Machine/Flags.lean ====
section
/-! DEFINITION. Everything derived from the flags: the phase (R22), STATUS (R32), the fault codes (R130), the
completion output (R139) and the response word (R64). -/

namespace Sys2Proof.Machine

/-- The block's phase (R22). -/
inductive Phase where
  | idle
  | reset
  | encoding
deriving DecidableEq, Repr

/-- The phase, derived from the state and not stored (R22). -/
def State.phase (s : State) : Phase :=
  if s.active = false then .idle
  else if 0 < s.resetLeft.toNat then .reset
  else .encoding

/-- STATUS.PHASE (R32). -/
def Phase.code : Phase → BitVec 2
  | .idle => 0
  | .reset => 1
  | .encoding => 2

/-- The STATUS register (R32). -/
def State.status (s : State) : BitVec 32 :=
  s.ledIndex ++ 0#4 ++ BitVec.ofBool s.fIllegalCmd ++ BitVec.ofBool s.fUnderrun ++ BitVec.ofBool s.fFbWriteBusy
    ++ BitVec.ofBool s.fStartBusy ++ 0#2 ++ BitVec.ofBool s.pendTc ++ BitVec.ofBool s.pendHt ++ BitVec.ofBool s.done
    ++ s.phase.code ++ BitVec.ofBool s.active

/-- Whether a fault's sticky bit is set (R29). -/
def State.hasFault (s : State) : FaultBit → Bool
  | .startBusy => s.fStartBusy
  | .fbWriteBusy => s.fFbWriteBusy
  | .underrun => s.fUnderrun
  | .illegalCmd => s.fIllegalCmd

/-- A fault's cause code (R130). -/
def FaultBit.code : FaultBit → Nat
  | .startBusy => 1
  | .fbWriteBusy => 2
  | .underrun => 3
  | .illegalCmd => 4

/-- A fault's STATUS bit: its code plus 7 (R130). -/
def FaultBit.statusBit (f : FaultBit) : Nat := f.code + 7

/-- The external output `IRQ_DONE`: a level equal to `done` (R139). -/
def State.irqDone (s : State) : Bool := s.done

/-- The numeric CODE of a response (R64). -/
def RespCode.bits : RespCode → BitVec 2
  | .ok => 0
  | .errBounds => 1
  | .errBusy => 2
  | .errIllegal => 3

/-- The 64-bit response: CODE in 63:62, zeros, DATA in 31:0 (R64). -/
def Response.word (r : Response) : BitVec 64 := r.code.bits ++ 0#30 ++ r.data

end Sys2Proof.Machine
end

