-- ==== Sys2Proof/Machine/Operands.lean ====
section
/-! DEFINITION. The operand forms: a pixel packed in a word (R43), a pixel as 24 transfer units (R67), a unit as
levels of the output line (R107). -/

namespace Sys2Proof.Machine

/-- `r ++ g ++ b`: red in bits 23:16, green in 15:8, blue in 7:0 (R43). -/
def pixelWord (p : Pixel) : BitVec 24 := p.r ++ p.g ++ p.b

/-- RDPIX's data: `zext_32(r ++ g ++ b)` (R64, R85). -/
def pixelData (p : Pixel) : BitVec 32 := (pixelWord p).setWidth 32

/-- The channel that unit `u` of a pixel carries: green, then red, then blue (R44, R67). -/
def unitChannel (p : Pixel) (u : Nat) : Channel :=
  if u / 8 = 0 then p.g else if u / 8 = 1 then p.r else p.b

/-- The bit of that channel: most significant bit first (R44, R67). -/
def unitBit (p : Pixel) (u : Nat) : Bool := (unitChannel p u).getLsbD (7 - u % 8)

/-- `ENC(p)`: the 24 units of a pixel (R67, R100). -/
def enc (c : Config) (p : Pixel) : HalfUnits :=
  Vector.ofFn fun u => if unitBit p u.val then c.CODE1 else c.CODE0

/-- The line's level during sub-bit `i` of a unit: `u[7-i]` (R45, R107). -/
def unitLevel (u : TxUnit) (i : Fin 8) : Bool := u.getLsbD (7 - i.val)

/-- The waveform of a unit, one level per sub-bit of length `T_SUB` (R107). -/
def unitWave (u : TxUnit) : List Bool := (List.finRange 8).map (unitLevel u)

/-- What a record of WIRE puts on the line; `Start` and `Reset` are markers (R31, R107). -/
def recordWave : Record → List Bool
  | .unit u => unitWave u
  | .start => []
  | .reset => []

/-- The levels the line has taken while units were sent, in order; idle time is not recorded (R31). -/
def State.waveform (s : State) : List Bool := s.wire.flatMap recordWave

/-- `LINE` during sub-bit `i` of the unit time that the next EMIT would send: the unit at `rp` while `active = 1`,
low while `active = 0` (R35, R107).
DESIGN CHOICE, log entry 18. -/
def State.line (s : State) (i : Fin 8) : Bool := s.active && unitLevel (s.buf.unit s.rp) i

end Sys2Proof.Machine
end

