-- ==== Sys2Proof/Machine/HostCommands.lean ====
section
/-! DEFINITION. The HOST commands (40_host_commands.md). Every one completes in the step that receives it, whatever
the state (R80), and set fault bits change none of them (R87). -/

namespace Sys2Proof.Machine

/-- TRANSMIT's accepted branch: the whole double buffer is zeroed and the transmission state is set up (R83). -/
def State.startTransmission (s : State) : State :=
  { s with
    ledIndex := 0
    resetLeft := BitVec.ofNat 8 s.cfg.R
    buf := zeroBuf
    rp := 0
    pendHt := false
    pendTc := false
    done := false
    active := true }

/-- TRANSMIT (R83). -/
def execTransmit (s : State) : Host.Outcome State Fault Refusal :=
  .next <|
    if s.active then (s.raise .startBusy).respond .errBusy 0
    else (s.startTransmission.record .start).respond .ok 0

/-- WRPIX (R84): the bounds check stands before the busy check (R81). -/
def execWrpix (idx : BitVec 16) (p : Pixel) (s : State) : Host.Outcome State Fault Refusal :=
  .next <|
    if s.inBounds idx = false then s.respond .errBounds 0
    else if s.active then (s.raise .fbWriteBusy).respond .errBusy 0
    else (s.writePixel idx.toNat p).respond .ok 0

/-- RDPIX (R85): allowed while busy. -/
def execRdpix (idx : BitVec 16) (s : State) : Host.Outcome State Fault Refusal :=
  .next <|
    if s.inBounds idx = false then s.respond .errBounds 0
    else s.respond .ok (pixelData (s.pixel idx.toNat))

/-- RDSTAT (R86): a read clears nothing. -/
def execRdstat (s : State) : Host.Outcome State Fault Refusal := .next (s.respond .ok s.status)

/-- ILLEGAL (R88): the word is kept by no register (R130). -/
def execIllegal (_w : CommandWord) (s : State) : Host.Outcome State Fault Refusal :=
  .next ((s.raise .illegalCmd).respond .errIllegal 0)

end Sys2Proof.Machine
end

