-- ==== Sys2Proof/Machine/ResetInput.lean ====
section
/-! DEFINITION. The reset input after power-on (70_reset_and_hazards.md). The power-on RESET is `State.powerOn`. -/

namespace Sys2Proof.Machine

/-- Every element of R20 at its reset value, the frame buffer newly drawn (R160, R162). WIRE, the other
observation, the agenda and the configuration are no elements that RESET clears (R31, R36). DESIGN CHOICE for the
model's own fields, log entry 19. -/
def State.clearAll (s : State) : State :=
  { s with
    active := false
    ledIndex := 0
    resetLeft := 0
    buf := zeroBuf
    rp := 0
    pendHt := false
    pendTc := false
    done := false
    fIllegalCmd := false
    fStartBusy := false
    fFbWriteBusy := false
    fUnderrun := false
    fb := drawnFrame s.cfg.N (s.epoch + 1)
    epoch := s.epoch + 1 }

/-- RESET (R160): it may come at any time, and ends a transmission at once (R163). -/
def execReset (s : State) : Host.Outcome State Fault Refusal := .next (s.clearAll.record .reset)

end Sys2Proof.Machine
end

