-- ==== Sys2Proof/Machine/StreamEngine.lean ====
section
/-! DEFINITION. The block's own actions (41_stream_engine.md): SER's EMIT, RFL's two refills, and the STOP a refill
can end in. -/

namespace Sys2Proof.Machine

/-- SER has sent the last unit of half `h`: an underrun if either event is still pending, then the half's event
becomes pending (R103, R135). -/
def State.finishHalf (s : State) (h : Half) : State :=
  (if s.pendHt || s.pendTc then s.raise .underrun else s).setPending h true

/-- SER's one step while `active = 1` (R103). -/
def State.sendUnit (s : State) : State :=
  let sent := s.record (.unit (s.buf.unit s.rp))
  let signalled := match halfEndingAt s.rp with
    | some h => sent.finishHalf h
    | none => sent
  { signalled with rp := nextRp s.rp }

/-- EMIT (R103). -/
def execEmit (s : State) : Host.Outcome State Fault Refusal :=
  if s.active then .next s.sendUnit else .fault .serDisabled

/-- STOP: the transmission ends at once; `BUF`, `rp`, `led_index` and `reset_left` stay (R106). -/
def State.stop (s : State) : State :=
  { s with active := false, pendHt := false, pendTc := false, done := true }

/-- `REFILL(k)` once its event is pending: the event is serviced, then one zero half of the reset phase, or the
next LED, or the phantom half, or STOP (R104, R105). -/
def State.refill (s : State) (k : Half) : State :=
  let served := s.setPending k false
  if 0 < s.resetLeft.toNat then
    { served with buf := s.buf.writeHalf k zeroHalf, resetLeft := s.resetLeft - 1 }
  else if s.ledIndex.toNat < s.cfg.N then
    { served with
      buf := s.buf.writeHalf k (enc s.cfg (s.pixel s.ledIndex.toNat))
      ledIndex := s.ledIndex + 1 }
  else if s.ledIndex.toNat = s.cfg.N then
    { served with buf := s.buf.writeHalf k zeroHalf, ledIndex := BitVec.ofNat 16 (s.cfg.N + 1) }
  else served.stop

/-- REFILL_HT is `REFILL(0)` (R108). -/
def execRefillHt (s : State) : Host.Outcome State Fault Refusal :=
  if s.enabled .refillHt then .next (s.refill .first) else .fault .refillHtDisabled

/-- REFILL_TC is `REFILL(1)` (R109). -/
def execRefillTc (s : State) : Host.Outcome State Fault Refusal :=
  if s.enabled .refillTc then .next (s.refill .second) else .fault .refillTcDisabled

end Sys2Proof.Machine
end

