-- ==== Sys2Proof/Machine/Dispatch.lean ====
section
/-! DEFINITION. One arm per instruction, each a direct call of its meaning. -/

namespace Sys2Proof.Machine

/-- What one instruction does to the state. -/
def exec (i : Instr) (s : State) : Host.Outcome State Fault Refusal :=
  match i with
  | .transmit => Sys2Proof.Machine.execTransmit s
  | .wrpix idx p => Sys2Proof.Machine.execWrpix idx p s
  | .rdpix idx => Sys2Proof.Machine.execRdpix idx s
  | .rdstat => Sys2Proof.Machine.execRdstat s
  | .illegal w => Sys2Proof.Machine.execIllegal w s
  | .emit => Sys2Proof.Machine.execEmit s
  | .refillHt => Sys2Proof.Machine.execRefillHt s
  | .refillTc => Sys2Proof.Machine.execRefillTc s
  | .reset => Sys2Proof.Machine.execReset s

end Sys2Proof.Machine
end

