-- ==== Sys2Proof/Machine/Step.lean ====
section
/-! DEFINITION. One atomic step of the block (R12): the next input's instruction, or a turn left to the block. -/

namespace Sys2Proof.Machine

/-- One step. -/
def step (s : State) : Host.Outcome State Fault Refusal :=
  match s.fetch with
  | .run i t => exec i t
  | .pass t => .next t
  | .reject ev => .refused (.noAction ev)

/-- The state with the opcode table's word as its next input. -/
def State.withFetchWord (s : State) (nbits w : Nat) : State := s.pushInput (tableInput nbits w)

end Sys2Proof.Machine
end

