-- ==== Sys2Proof/Machine/Assembler.lean ====
section
/-! DEFINITION. HOST's command scripts: the assembler syntax (R70) and the pseudo-instructions (R71). This is HOST's
side: the block sees only the command words. -/

namespace Sys2Proof.Machine

/-- A line's statement, its operands as written (R70, R71). -/
inductive Stmt where
  | transmit
  | wrpix (idx r g b : Nat)
  | rdpix (idx : Nat)
  | rdstat
  /-- `.word`: a raw command word, which may be ILLEGAL. -/
  | word (w : Nat)
  | waitIdle
  | showFrame
  | fill (r g b : Nat)
  | wrpixc (idx rgb : Nat)
deriving DecidableEq, Repr

/-- An assembly error; it is not a behaviour of the block (R70). -/
inductive AsmError where
  | badNumber
  | outOfRange
  | unknownMnemonic
  | wrongOperands
deriving DecidableEq, Repr

/-- What HOST does for a statement: send one command, or poll RDSTAT until STATUS.BUSY is 0 (R71). -/
inductive HostOp where
  | send (inp : Input)
  | pollIdle
deriving DecidableEq, Repr

/-- The command a poll sends, each time round (R71). -/
def pollCommand : Input := encode .rdstat

/-- Whether a poll goes round again after this response: `DATA[0] = 1`. The branch is HOST's (R71). -/
def pollAgain (r : Response) : Bool := r.data.getLsbD 0

/-! ### Assembling a statement -/

/-- An operand of a `w`-bit field; out of range is an assembly error (R70). -/
def asmField (w v : Nat) : Except AsmError (BitVec w) :=
  if v < 2 ^ w then .ok (BitVec.ofNat w v) else .error .outOfRange

/-- A pixel operand. -/
def asmPixel (r g b : Nat) : Except AsmError Pixel := do
  let r ← asmField 8 r
  let g ← asmField 8 g
  let b ← asmField 8 b
  return { r := r, g := g, b := b }

/-- `WRPIX idx, r, g, b` (R70). -/
def asmWrpix (idx r g b : Nat) : Except AsmError Input := do
  let i ← asmField 16 idx
  let p ← asmPixel r g b
  return encode (.wrpix i p)

/-- What a statement expands to, for a strip of `n` pixels (R70, R71). -/
def assemble (n : Nat) : Stmt → Except AsmError (List HostOp)
  | .transmit => .ok [.send (encode .transmit)]
  | .wrpix idx r g b => do return [.send (← asmWrpix idx r g b)]
  | .rdpix idx => do return [.send (encode (.rdpix (← asmField 16 idx)))]
  | .rdstat => .ok [.send (encode .rdstat)]
  | .word w => do return [.send (.command (← asmField 64 w))]
  | .waitIdle => .ok [.pollIdle]
  | .showFrame => .ok [.send (encode .transmit), .pollIdle]
  | .fill r g b => do
    let p ← asmPixel r g b
    return (List.range n).map fun i => .send (encode (.wrpix (BitVec.ofNat 16 i) p))
  | .wrpixc idx rgb => do
    let v ← asmField 24 rgb
    return [.send (← asmWrpix idx (v.extractLsb' 16 8).toNat (v.extractLsb' 8 8).toNat (v.extractLsb' 0 8).toNat)]

/-! ### Reading a line -/

/-- Space or tab. -/
def isBlank (c : Char) : Bool := c == ' ' || c == '\t'

/-- A text without the blanks at its two ends. -/
def trimBlanks (cs : List Char) : List Char := ((cs.dropWhile isBlank).reverse.dropWhile isBlank).reverse

/-- The pieces of a text between the occurrences of `c`. -/
def splitAtChar (c : Char) : List Char → List (List Char)
  | [] => [[]]
  | x :: xs =>
    if x = c then [] :: splitAtChar c xs
    else match splitAtChar c xs with
      | [] => [[x]]
      | piece :: rest => (x :: piece) :: rest

/-- The value of a digit, up to base 16. -/
def digitValue (c : Char) : Option Nat :=
  if '0' ≤ c ∧ c ≤ '9' then some (c.toNat - '0'.toNat)
  else if 'a' ≤ c ∧ c ≤ 'f' then some (c.toNat - 'a'.toNat + 10)
  else if 'A' ≤ c ∧ c ≤ 'F' then some (c.toNat - 'A'.toNat + 10)
  else none

/-- Adds one digit of a base to a number. -/
def addDigit (base : Nat) (acc : Option Nat) (c : Char) : Option Nat :=
  match acc, digitValue c with
  | some a, some d => if d < base then some (a * base + d) else none
  | _, _ => none

/-- A non-empty run of digits of a base. -/
def readDigits (base : Nat) : List Char → Except AsmError Nat
  | [] => .error .badNumber
  | cs => match cs.foldl (addDigit base) (some 0) with
    | some v => .ok v
    | none => .error .badNumber

/-- A number: decimal, or hexadecimal after `0x` (R70). -/
def readNumber : List Char → Except AsmError Nat
  | '0' :: 'x' :: ds => readDigits 16 ds
  | ds => readDigits 10 ds

/-- The operands of a line: numbers separated by commas; none if there is no text. -/
def readOperands (cs : List Char) : Except AsmError (List Nat) :=
  match trimBlanks cs with
  | [] => .ok []
  | text => (splitAtChar ',' text).mapM fun piece => readNumber (trimBlanks piece)

/-- The statement a mnemonic and its operands spell (R70, R71, R72). -/
def readStmt (mnemonic : List Char) (ops : List Nat) : Except AsmError Stmt :=
  if mnemonic = ['T', 'R', 'A', 'N', 'S', 'M', 'I', 'T'] then
    match ops with
    | [] => .ok .transmit
    | _ => .error .wrongOperands
  else if mnemonic = ['W', 'R', 'P', 'I', 'X'] then
    match ops with
    | [idx, r, g, b] => .ok (.wrpix idx r g b)
    | _ => .error .wrongOperands
  else if mnemonic = ['R', 'D', 'P', 'I', 'X'] then
    match ops with
    | [idx] => .ok (.rdpix idx)
    | _ => .error .wrongOperands
  else if mnemonic = ['R', 'D', 'S', 'T', 'A', 'T'] then
    match ops with
    | [] => .ok .rdstat
    | _ => .error .wrongOperands
  else if mnemonic = ['.', 'w', 'o', 'r', 'd'] then
    match ops with
    | [w] => .ok (.word w)
    | _ => .error .wrongOperands
  else if mnemonic = ['W', 'A', 'I', 'T', '_', 'I', 'D', 'L', 'E'] then
    match ops with
    | [] => .ok .waitIdle
    | _ => .error .wrongOperands
  else if mnemonic = ['S', 'H', 'O', 'W'] then
    match ops with
    | [] => .ok .showFrame
    | _ => .error .wrongOperands
  else if mnemonic = ['F', 'I', 'L', 'L'] then
    match ops with
    | [r, g, b] => .ok (.fill r g b)
    | _ => .error .wrongOperands
  else if mnemonic = ['W', 'R', 'P', 'I', 'X', 'C'] then
    match ops with
    | [idx, rgb] => .ok (.wrpixc idx rgb)
    | _ => .error .wrongOperands
  else .error .unknownMnemonic

/-- One line of a script: its label if it has one, and its statement if it has one. -/
structure AsmLine where
  label : Option (List Char)
  stmt : Option Stmt
deriving DecidableEq, Repr

/-- A line's label, `name:` at its start, and the text after it (R70). R70 does not say what a name may be: any text
before the line's first `:`, without the blanks at its two ends, is taken as the name, be it empty, with blanks inside
or the text of a command, and two lines may have one name. DESIGN CHOICE, log entry 15. -/
def splitLabel (cs : List Char) : Option (List Char) × List Char :=
  match cs.span (fun c => c ≠ ':') with
  | (_, []) => (none, cs)
  | (name, _ :: rest) => (some (trimBlanks name), rest)

/-- Reads one line: a comment runs from `;` to its end (R70).
DESIGN CHOICE, log entry 15 (blanks, letter case, where a label may stand, what its name may be). -/
def readLine (cs : List Char) : Except AsmError AsmLine := do
  let (name, rest) := splitLabel (cs.takeWhile (fun c => c ≠ ';'))
  match trimBlanks rest with
  | [] => return { label := name, stmt := none }
  | text =>
    let (mnemonic, operands) := text.span (fun c => !isBlank c)
    let ops ← readOperands operands
    let stmt ← readStmt mnemonic ops
    return { label := name, stmt := some stmt }

/-- Assembles a script, one command a line, for a strip of `n` pixels (R70). -/
def assembleScript (n : Nat) (text : List Char) : Except AsmError (List HostOp) := do
  let lines ← (splitAtChar '\n' text).mapM readLine
  let parts ← (lines.filterMap AsmLine.stmt).mapM (assemble n)
  return parts.flatten

end Sys2Proof.Machine
end

