-- ==== Sys2Proof/Safety.lean ====
section
/-! DEFINITION. What counts as a safe run of the block: no fault bit set (R131), the invariants of R38, a fault-free
transmission and the stream it sends (R110). -/

namespace Sys2Proof.Machine

/-- No fault bit is set: the premise of a claim about the block (R131). -/
def State.noFault (s : State) : Bool :=
  !(s.fIllegalCmd || s.fStartBusy || s.fFbWriteBusy || s.fUnderrun)

/-- The transmission is complete: STATUS.BUSY is 0 (R54) after a STOP, and no fault bit is set, without which no
state is a correct final one (R131). -/
def State.correctFinal (s : State) : Bool := !s.active && s.done && s.noFault

/-- What holds in every reachable state, faulted or not: the frame buffer's form (R30) and items 1, 2, 3, 5 and 6
of R38. -/
structure State.Kept (s : State) : Prop where
  frame : Memory.wf s.cfg.N s.fb = true
  resetLeft_le : s.resetLeft.toNat ≤ s.cfg.R
  resetFirst : 0 < s.resetLeft.toNat → s.ledIndex = 0
  ledIndex_le : s.ledIndex.toNat ≤ s.cfg.N + 1
  idleQuiet : s.active = false → s.pendHt = false ∧ s.pendTc = false
  doneIdle : s.done = true → s.active = false

/-- Items 4 and 7 of R38, which hold while no fault bit is set. -/
structure State.InStep (s : State) : Prop where
  oneEvent : ¬(s.pendHt = true ∧ s.pendTc = true)
  htInSecond : s.active = true → s.pendHt = true → 24 ≤ s.rp.val
  tcInFirst : s.active = true → s.pendTc = true → s.rp.val < 24

/-- The block's invariant (R38). -/
def State.Inv (s : State) : Prop := s.Kept ∧ (s.noFault = true → s.InStep)

/-- The refill that services a half's event: REFILL_HT for the first half, REFILL_TC for the second (R104). -/
def refillInstr : Half → Instr
  | .first => .refillHt
  | .second => .refillTc

/-- A unit the block may send: `Z0`, `CODE0` or `CODE1` (R66). -/
def legalUnit (c : Config) (u : TxUnit) : Bool := u == z0 || u == c.CODE0 || u == c.CODE1

/-- Every unit in the double buffer and every unit sent so far is one of the three of R66. -/
structure State.LegalUnits (s : State) : Prop where
  buffered : ∀ j : Fin 48, legalUnit s.cfg (s.buf.unit j) = true
  sent : ∀ u, Record.unit u ∈ s.wire → legalUnit s.cfg u = true

/-- Runs a schedule of instructions, one atomic step each; it stops at the first that has no step. -/
def execAll : List Instr → State → Host.Outcome State Fault Refusal
  | [], s => .next s
  | i :: is, s =>
    match exec i s with
    | .next t => execAll is t
    | .fault f => .fault f
    | .refused r => .refused r

/-- The `Unit` contents of one transmission: the reset interval, each pixel's 24 units in index order, and `j`
phantom zero units (R110). -/
def streamUnits (c : Config) (fb : Memory) (j : Nat) : List TxUnit :=
  List.replicate c.resetUnits z0 ++ fb.flatMap (fun p => (enc c p).toList) ++ List.replicate j z0

/-- R110's premise: a TRANSMIT is accepted from IDLE in `s`; the steps of `body` follow, in any order of the agents
and HOST, the transmission still running after them in `u`; then `last` ends it, and no fault bit is set at the end
(fault bits are sticky, R131, so none is set at any step). -/
structure FaultFreeTransmission (s : State) (body : List Instr) (u : State) (last : Instr) (t : State) : Prop where
  idle : s.active = false
  frame : Memory.wf s.cfg.N s.fb = true
  runs : execAll (.transmit :: body) s = .next u
  noSecondStart : Instr.transmit ∉ body
  noReset : Instr.reset ∉ body ∧ last ≠ .reset
  running : u.active = true
  stops : exec last u = .next t
  stopped : t.active = false
  noFault : t.noFault = true

end Sys2Proof.Machine
end

