-- ==== Sys2Proof/Certificates/Slice0/Obligations.lean ====
section
/-! DEFINITION. The statements for the provers, each from the numbered rules its docstring names. -/

open Sys2Proof Sys2Proof.Machine

/-! ### Encodings (30_encoding.md) -/

/-- Decode and encode agree: no bit of a well-formed instruction's encoding is dropped (R60, R61, R65, R69). -/
def Obligations.DecodeOfEncodeIsIdentity : Prop :=
  ∀ i : Instr, i.wf = true → decode (encode i) = .ok i

/-- Each input has one meaning: what the decoder accepts is well formed and encodes back to that input (R61, R68). -/
def Obligations.EncodeOfDecodeIsIdentity : Prop :=
  ∀ (x : Input) (i : Instr), decode x = .ok i → i.wf = true ∧ encode i = x

/-- R69, clause by clause: the order of the tests, the fields of WRPIX and RDPIX, and ILLEGAL for the rest. -/
def Obligations.DecoderIsTheDecodeFunction : Prop :=
  ∀ w : CommandWord,
    let op := w.extractLsb 63 60
    let rsv := w.extractLsb 59 40
    let idx := w.extractLsb 39 24
    let rgb := w.extractLsb 23 0
    decode (.command w) = .ok (
      if op = 0x1#4 ∧ rsv = 0#20 ∧ idx = 0#16 ∧ rgb = 0#24 then .transmit
      else if op = 0x2#4 ∧ rsv = 0#20 then
        .wrpix idx { r := w.extractLsb 23 16, g := w.extractLsb 15 8, b := w.extractLsb 7 0 }
      else if op = 0x3#4 ∧ rsv = 0#20 ∧ rgb = 0#24 then .rdpix idx
      else if op = 0x4#4 ∧ rsv = 0#20 ∧ idx = 0#16 ∧ rgb = 0#24 then .rdstat
      else .illegal w)

/-- Each command's words are those whose fixed bits hold the values of R60 and R61 (OP 63:60, and every field that
must be zero), given here as one mask over the word. For WRPIX and RDPIX the mask covers all of RSV, bits 59:40, as
R60 does; the opcode table's mask leaves out bits 43:40 (log entry 10). -/
def Obligations.CommandWordsAreThoseOfTheOpMap : Prop :=
  ∀ w : CommandWord,
    (decodeCommand w = .transmit ↔ w = 0x1000000000000000#64) ∧
    ((∃ idx p, decodeCommand w = .wrpix idx p) ↔ w &&& 0xFFFFFF0000000000#64 = 0x2000000000000000#64) ∧
    ((∃ idx, decodeCommand w = .rdpix idx) ↔ w &&& 0xFFFFFF0000FFFFFF#64 = 0x3000000000000000#64) ∧
    (decodeCommand w = .rdstat ↔ w = 0x4000000000000000#64)

/-- R62: which words are ILLEGAL, and what an ILLEGAL word does: the fault bit, the response, and nothing else. -/
def Obligations.ReservedWordsAreIllegal : Prop :=
  ∀ w : CommandWord,
    let op := w.extractLsb 63 60
    let rsv := w.extractLsb 59 40
    let idx := w.extractLsb 39 24
    let rgb := w.extractLsb 23 0
    (decodeCommand w = .illegal w ↔
      op = 0x0#4 ∨ 0x5#4 ≤ op ∨
      (op = 0x1#4 ∧ ¬(rsv = 0#20 ∧ idx = 0#16 ∧ rgb = 0#24)) ∨
      (op = 0x2#4 ∧ rsv ≠ 0#20) ∨
      (op = 0x3#4 ∧ ¬(rsv = 0#20 ∧ rgb = 0#24)) ∨
      (op = 0x4#4 ∧ ¬(rsv = 0#20 ∧ idx = 0#16 ∧ rgb = 0#24))) ∧
    ∀ s : State, decodeCommand w = .illegal w →
      exec (decodeCommand w) s
        = .next { s with fIllegalCmd := true, responses := s.responses ++ [{ code := .errIllegal, data := 0 }] }

/-- R65: the four labels and their actions, no action for any other label, and no action from a command word. -/
def Obligations.LabelsNameTheirActions : Prop :=
  decode (.label 0x1#4) = .ok .emit ∧ decode (.label 0x2#4) = .ok .refillHt ∧
  decode (.label 0x3#4) = .ok .refillTc ∧ decode (.label 0x4#4) = .ok .reset ∧
  (∀ ev : Label, ev = 0x0#4 ∨ 0x5#4 ≤ ev → decode (.label ev) = .error (.noAction ev)) ∧
  (∀ (w : CommandWord) (i : Instr), i = .emit ∨ i = .refillHt ∨ i = .refillTc ∨ i = .reset →
    decode (.command w) ≠ .ok i)

/-- A few words written out from the spec's encodings, and what they stand for (R60, R61, R65; the vectors of L2.1). -/
def Obligations.SpecWordsDecodeAsWritten : Prop :=
  decodeTableWord 64 0x1000000000000000 = some .transmit ∧
  decodeTableWord 64 0x2000000002FF0000 = some (.wrpix 2 { r := 255, g := 0, b := 0 }) ∧
  decodeTableWord 64 0x3000000005000000 = some (.rdpix 5) ∧
  decodeTableWord 64 0x4000000000000000 = some .rdstat ∧
  decodeTableWord 64 0x20000FFFFFFFFFFF = some (.illegal 0x20000FFFFFFFFFFF#64) ∧
  decodeTableWord 8 0x1 = some .emit ∧
  decodeTableWord 8 0x2 = some .refillHt ∧
  decodeTableWord 8 0x3 = some .refillTc ∧
  decodeTableWord 8 0x4 = some .reset

/-- R64's layout: CODE in bits 63:62 with its number, zeros in 61:32, DATA in 31:0. -/
def Obligations.ResponseWordLayout : Prop :=
  ∀ r : Response,
    r.word.extractLsb 63 62
      = (match r.code with | .ok => 0#2 | .errBounds => 1#2 | .errBusy => 2#2 | .errIllegal => 3#2) ∧
    r.word.extractLsb 61 32 = 0#30 ∧ r.word.extractLsb 31 0 = r.data

/-- R67: unit `u` of `ENC(p)` by its channel and bit, and where a unit of a half stands in `BUF`. -/
def Obligations.PixelUnitsFollowTheLayout : Prop :=
  (∀ (c : Config) (p : Pixel) (u : Fin 24),
    (enc c p)[u.val] =
      if ([p.g, p.r, p.b].getD (u.val / 8) 0).getLsbD (7 - u.val % 8) then c.CODE1 else c.CODE0) ∧
  (∀ (b : Buf) (us : HalfUnits) (u : Fin 24),
    (b.writeHalf .first us).unit ⟨24 * 0 + u.val, by omega⟩ = us[u.val] ∧
    (b.writeHalf .second us).unit ⟨24 * 1 + u.val, by omega⟩ = us[u.val])

/-- R100: the three properties of `ENC`, and its worked example. -/
def Obligations.PixelEncodingIsFaithful : Prop :=
  ∀ c : Config,
    (enc c { r := 0, g := 0, b := 0 } = Vector.replicate 24 c.CODE0 ∧
      enc c { r := 255, g := 255, b := 255 } = Vector.replicate 24 c.CODE1) ∧
    (∀ p q : Pixel, enc c p = enc c q → p = q) ∧
    (∀ p : Pixel, z0 ∉ enc c p) ∧
    (enc c { r := 255, g := 0, b := 0 }).toList
      = List.replicate 8 c.CODE0 ++ List.replicate 8 c.CODE1 ++ List.replicate 8 c.CODE0

/-- R107: every code is one pulse that starts the unit, `k` sub-bits high and `8-k` low; `Z0` is low throughout. The
clause on `s.line` is the model's choice (DESIGN CHOICE, log entry 18): the line shows the unit at `rp`, which the next
EMIT would send, most significant bit first while a transmission runs, and is low otherwise. -/
def Obligations.LineWaveform : Prop :=
  ∀ c : Config, ∃ k0 k1 : Nat, 1 ≤ k0 ∧ k0 < k1 ∧ k1 ≤ 7 ∧
    unitWave c.CODE0 = List.replicate k0 true ++ List.replicate (8 - k0) false ∧
    unitWave c.CODE1 = List.replicate k1 true ++ List.replicate (8 - k1) false ∧
    unitWave z0 = List.replicate 8 false ∧
    ∀ (s : State) (i : Fin 8), s.line i = (s.active && (s.buf.unit s.rp).getLsbD (7 - i.val))

/-! ### Configuration (00_scope.md) -/

/-- `Config.build` accepts exactly the parameters of R5, R9 and R10, and keeps them as given (R16). That R11 is no part
of this refusal is the model's choice (DEDUCED, log entry 7): R16, R172 and U15 leave R11 out, R165 item 1 and U14 take
it in. -/
def Obligations.BuilderRefusesExactlyBadParameters : Prop :=
  ∀ p : Params,
    (∃ c : Config, Config.build p = .ok c ∧ c.toParams = p) ↔
      (1 ≤ p.N ∧ p.N ≤ 65534) ∧ p.R ≤ 255 ∧
      ∃ k0 k1 : Nat, 1 ≤ k0 ∧ k0 < k1 ∧ k1 ≤ 7 ∧
        ∀ i : Fin 8, p.CODE0.getLsbD (7 - i.val) = decide (i.val < k0) ∧
          p.CODE1.getLsbD (7 - i.val) = decide (i.val < k1)

/-- R171: the smallest `R` that meets the latch constraint. -/
def Obligations.MinimalResetRefillsMeetTheLatch : Prop :=
  ∀ p : Params, 0 < p.timing.tSub →
    (p.timing.tLatch < (48 + 24 * p.R) * p.timing.tUnit ↔ p.timing.minResetRefills ≤ p.R)

/-! ### STATUS, phase and outputs (10_state.md) -/

/-- R32: every field of STATUS at its bits, the reserved bits zero, PHASE never 3, and the reset value. -/
def Obligations.StatusLayout : Prop :=
  (∀ s : State,
    s.status.extractLsb 0 0 = BitVec.ofBool s.active ∧
    s.status.extractLsb 2 1 = (match s.phase with | .idle => 0#2 | .reset => 1#2 | .encoding => 2#2) ∧
    s.status.extractLsb 2 1 ≠ 3#2 ∧
    s.status.extractLsb 3 3 = BitVec.ofBool s.done ∧
    s.status.extractLsb 4 4 = BitVec.ofBool s.pendHt ∧
    s.status.extractLsb 5 5 = BitVec.ofBool s.pendTc ∧
    s.status.extractLsb 7 6 = 0#2 ∧
    s.status.extractLsb 8 8 = BitVec.ofBool s.fStartBusy ∧
    s.status.extractLsb 9 9 = BitVec.ofBool s.fFbWriteBusy ∧
    s.status.extractLsb 10 10 = BitVec.ofBool s.fUnderrun ∧
    s.status.extractLsb 11 11 = BitVec.ofBool s.fIllegalCmd ∧
    s.status.extractLsb 15 12 = 0#4 ∧
    s.status.extractLsb 31 16 = s.ledIndex) ∧
  ∀ c : Config, (State.powerOn c).status = 0x00000000#32

/-- R35: LINE is low while idle, and IRQ_DONE is the level of `done`; R22: the three phases. -/
def Obligations.OutputsAndPhaseFollowTheState : Prop :=
  ∀ s : State,
    (s.active = false → ∀ i : Fin 8, s.line i = false) ∧
    (s.irqDone = true ↔ s.done = true) ∧
    (s.phase = .idle ↔ s.active = false) ∧
    (s.phase = .reset ↔ s.active = true ∧ 0 < s.resetLeft.toNat) ∧
    (s.phase = .encoding ↔ s.active = true ∧ s.resetLeft.toNat = 0)

/-- R130: a fault's cause code is its STATUS bit minus 7, and that bit of STATUS is the sticky fault bit. -/
def Obligations.FaultCodesAreStatusBits : Prop :=
  FaultBit.code .startBusy = 1 ∧ FaultBit.code .fbWriteBusy = 2 ∧ FaultBit.code .underrun = 3 ∧
  FaultBit.code .illegalCmd = 4 ∧
  ∀ (s : State) (f : FaultBit), f.code = f.statusBit - 7 ∧ 8 ≤ f.statusBit ∧ f.statusBit ≤ 11 ∧
    s.status.getLsbD f.statusBit = s.hasFault f

/-! ### HOST commands (40_host_commands.md) -/

/-- R83: TRANSMIT's word and its two branches; all of the state that is not named is unchanged. -/
def Obligations.TransmitFollowsItsRule : Prop :=
  (∀ w : CommandWord, decode (.command w) = .ok .transmit ↔ w = 0x1000000000000000#64) ∧
  (∀ s : State, s.active = false → ∃ t : State,
    exec .transmit s = .next t ∧
    t = { s with
          ledIndex := 0, resetLeft := BitVec.ofNat 8 s.cfg.R, buf := t.buf, rp := 0, pendHt := false
          pendTc := false, done := false, active := true, wire := s.wire ++ [.start]
          responses := s.responses ++ [{ code := .ok, data := 0 }] } ∧
    t.resetLeft.toNat = s.cfg.R ∧
    ∀ j : Fin 48, t.buf.unit j = 0x00#8) ∧
  (∀ s : State, s.active = true →
    exec .transmit s
      = .next { s with fStartBusy := true, responses := s.responses ++ [{ code := .errBusy, data := 0 }] })

/-- R84: WRPIX's word and its three branches, the bounds check first; all that is not named is unchanged. -/
def Obligations.WrpixFollowsItsRule : Prop :=
  (∀ (w : CommandWord) (idx : BitVec 16) (p : Pixel),
    decode (.command w) = .ok (.wrpix idx p) ↔ w = 0x2#4 ++ 0#20 ++ idx ++ p.r ++ p.g ++ p.b) ∧
  (∀ (s : State) (idx : BitVec 16) (p : Pixel), s.cfg.N ≤ idx.toNat →
    exec (.wrpix idx p) s
      = .next { s with responses := s.responses ++ [{ code := .errBounds, data := 0 }] }) ∧
  (∀ (s : State) (idx : BitVec 16) (p : Pixel), idx.toNat < s.cfg.N → s.active = true →
    exec (.wrpix idx p) s
      = .next { s with fFbWriteBusy := true, responses := s.responses ++ [{ code := .errBusy, data := 0 }] }) ∧
  (∀ (s : State) (idx : BitVec 16) (p : Pixel), Memory.wf s.cfg.N s.fb = true → idx.toNat < s.cfg.N →
    s.active = false → ∃ t : State,
      exec (.wrpix idx p) s = .next t ∧
      t = { s with fb := t.fb, responses := s.responses ++ [{ code := .ok, data := 0 }] } ∧
      t.fb.length = s.fb.length ∧
      ∀ i : Nat, t.pixel i = if i = idx.toNat then p else s.pixel i) ∧
  (∀ s : State, s.cfg.N ≤ (65535#16).toNat)

/-- RDPIX (R85): its word and its two branches, both allowed while busy; a read changes nothing. -/
def Obligations.RdpixFollowsItsRule : Prop :=
  (∀ (w : CommandWord) (idx : BitVec 16),
    decode (.command w) = .ok (.rdpix idx) ↔ w = 0x3#4 ++ 0#20 ++ idx ++ 0#24) ∧
  (∀ (s : State) (idx : BitVec 16), s.cfg.N ≤ idx.toNat →
    exec (.rdpix idx) s
      = .next { s with responses := s.responses ++ [{ code := .errBounds, data := 0 }] }) ∧
  (∀ (s : State) (idx : BitVec 16), idx.toNat < s.cfg.N →
    exec (.rdpix idx) s
      = .next { s with
          responses := s.responses ++
            [{ code := .ok
               data := 0x00#8 ++ (s.pixel idx.toNat).r ++ (s.pixel idx.toNat).g ++ (s.pixel idx.toNat).b }] })

/-- R86: RDSTAT's word and effect in every state: the response is OK with STATUS, and nothing is cleared. -/
def Obligations.RdstatFollowsItsRule : Prop :=
  (∀ w : CommandWord, decode (.command w) = .ok .rdstat ↔ w = 0x4000000000000000#64) ∧
  ∀ s : State,
    exec .rdstat s = .next { s with responses := s.responses ++ [{ code := .ok, data := s.status }] }

/-- R88: every ILLEGAL word sets `f_illegal_cmd`, answers ERR_ILLEGAL and changes nothing else, in every state. -/
def Obligations.IllegalFollowsItsRule : Prop :=
  ∀ (w : CommandWord) (s : State),
    exec (.illegal w) s
      = .next { s with fIllegalCmd := true, responses := s.responses ++ [{ code := .errIllegal, data := 0 }] }

/-- R80 and R81: every command word completes in the step that receives it, with one response; the first check that
fails, in the order illegal, bounds, busy, gives the code; a command that answers ERR_BOUNDS or OK raises no fault. -/
def Obligations.ChecksAreMadeInOrder : Prop :=
  ∀ (w : CommandWord) (s : State), ∃ (t : State) (r : Response),
    exec (decodeCommand w) s = .next t ∧ t.responses = s.responses ++ [r] ∧
    (r.code =
      if isIllegalWord w = true then .errIllegal
      else if (opField w = 0x2#4 ∨ opField w = 0x3#4) ∧ s.cfg.N ≤ (idxField w).toNat then .errBounds
      else if (opField w = 0x1#4 ∨ opField w = 0x2#4) ∧ s.active = true then .errBusy
      else .ok) ∧
    (r.code = .errBounds ∨ r.code = .ok → ∀ f : FaultBit, t.hasFault f = s.hasFault f)

/-- A pixel written while idle is what RDPIX answers next, and every other pixel reads as before (R40, R48, R52). -/
def Obligations.WrittenPixelReadsBack : Prop :=
  ∀ (s : State) (idx other : BitVec 16) (p : Pixel),
    Memory.wf s.cfg.N s.fb = true → s.active = false → idx.toNat < s.cfg.N → other.toNat < s.cfg.N →
    ∃ t u : State, exec (.wrpix idx p) s = .next t ∧ exec (.rdpix other) t = .next u ∧
      u.responses = t.responses ++ [{ code := .ok, data := pixelData (if other = idx then p else s.pixel other.toNat) }]

/-- R49: issued twice in a row, every command but TRANSMIT changes nothing the second time but its response, which is
the same; a TRANSMIT issued twice leaves F_START_BUSY set. -/
def Obligations.CommandsButTransmitAreIdempotent : Prop :=
  (∀ (w : CommandWord) (s : State), decodeCommand w ≠ .transmit → ∃ (t : State) (r : Response),
    exec (decodeCommand w) s = .next t ∧ t.responses = s.responses ++ [r] ∧
    exec (decodeCommand w) t = .next { t with responses := t.responses ++ [r] }) ∧
  ∀ s : State, ∃ t u : State, exec .transmit s = .next t ∧ exec .transmit t = .next u ∧ u.fStartBusy = true

/-- R58 and R39: no HOST command's response depends on `BUF` or `rp`. -/
def Obligations.HostCannotReadTheDoubleBuffer : Prop :=
  ∀ (w : CommandWord) (s : State) (b : Buf) (j : Fin 48), ∃ t u : State,
    exec (decodeCommand w) s = .next t ∧
    exec (decodeCommand w) { s with buf := b, rp := j } = .next u ∧ u.responses = t.responses

/-- R58: only TRANSMIT among the HOST commands writes `BUF`, `rp`, `reset_left` or a pending flag. -/
def Obligations.HostCannotWriteTheStream : Prop :=
  ∀ (w : CommandWord) (s t : State), decodeCommand w ≠ .transmit → exec (decodeCommand w) s = .next t →
    t.buf = s.buf ∧ t.rp = s.rp ∧ t.resetLeft = s.resetLeft ∧ t.pendHt = s.pendHt ∧ t.pendTc = s.pendTc ∧
    t.active = s.active ∧ t.ledIndex = s.ledIndex ∧ t.done = s.done ∧ t.wire = s.wire

/-! ### Stream engine (41_stream_engine.md) -/

/-- R103: EMIT while active, field by field, and no step while idle. -/
def Obligations.EmitFollowsItsRule : Prop :=
  (∀ s : State, s.active = true →
    exec .emit s = .next { s with
      wire := s.wire ++ [.unit (s.buf.unit s.rp)]
      fUnderrun := s.fUnderrun || (decide (s.rp.val = 23 ∨ s.rp.val = 47) && (s.pendHt || s.pendTc))
      pendHt := s.pendHt || decide (s.rp.val = 23)
      pendTc := s.pendTc || decide (s.rp.val = 47)
      rp := ⟨(s.rp.val + 1) % 48, Nat.mod_lt _ (by decide)⟩ }) ∧
  ∀ s : State, s.active = false → exec .emit s = .fault .serDisabled

/-- R104 and R105: a refill of either half while its event is pending, in the three branches that go on: a zero half
of the reset phase, the next LED, the phantom half. All that is not named is unchanged, the other half included. -/
def Obligations.RefillRewritesItsHalf : Prop :=
  ∀ (s : State) (k : Half), s.active = true → s.pending k = true →
    (0 < s.resetLeft.toNat ∨ s.ledIndex.toNat ≤ s.cfg.N) → ∃ t : State,
    exec (refillInstr k) s = .next t ∧
    t = { s with
          pendHt := s.pendHt && decide (k ≠ .first), pendTc := s.pendTc && decide (k ≠ .second)
          buf := t.buf, resetLeft := t.resetLeft, ledIndex := t.ledIndex } ∧
    (0 < s.resetLeft.toNat →
      t.resetLeft.toNat = s.resetLeft.toNat - 1 ∧ t.ledIndex = s.ledIndex ∧
      ∀ j : Fin 48, t.buf.unit j = if k.holds j then 0x00#8 else s.buf.unit j) ∧
    (s.resetLeft.toNat = 0 → s.ledIndex.toNat < s.cfg.N →
      t.resetLeft = s.resetLeft ∧ t.ledIndex.toNat = s.ledIndex.toNat + 1 ∧
      ∀ j : Fin 48, t.buf.unit j =
        if k.holds j then
          (if unitBit (s.pixel s.ledIndex.toNat) (j.val - k.base) then s.cfg.CODE1 else s.cfg.CODE0)
        else s.buf.unit j) ∧
    (s.resetLeft.toNat = 0 → s.ledIndex.toNat = s.cfg.N →
      t.resetLeft = s.resetLeft ∧ t.ledIndex.toNat = s.cfg.N + 1 ∧
      ∀ j : Fin 48, t.buf.unit j = if k.holds j then 0x00#8 else s.buf.unit j)

/-- R106: a refill that finds `led_index > N` stops the transmission, whichever half it services; nothing else of the
state changes; after it neither SER nor RFL has a step, and the line is low. -/
def Obligations.StopEndsTheTransmission : Prop :=
  ∀ (s : State) (k : Half), s.active = true → s.pending k = true → s.resetLeft.toNat = 0 →
    s.cfg.N < s.ledIndex.toNat →
    ∃ t : State, exec (refillInstr k) s = .next t ∧
      t = { s with active := false, pendHt := false, pendTc := false, done := true } ∧
      exec .emit t = .fault .serDisabled ∧ exec .refillHt t = .fault .refillHtDisabled ∧
      exec .refillTc t = .fault .refillTcDisabled ∧ ∀ i : Fin 8, t.line i = false

/-- A refill has a step exactly when its event is pending and a transmission is running (R15, R104, R108, R109). -/
def Obligations.RefillNeedsItsEvent : Prop :=
  ∀ s : State,
    ((∃ t, exec .refillHt s = .next t) ↔ s.active = true ∧ s.pendHt = true) ∧
    ((∃ t, exec .refillTc s = .next t) ↔ s.active = true ∧ s.pendTc = true) ∧
    (¬(s.active = true ∧ s.pendHt = true) → exec .refillHt s = .fault .refillHtDisabled) ∧
    (¬(s.active = true ∧ s.pendTc = true) → exec .refillTc s = .fault .refillTcDisabled)

/-- R114: with both events pending RFL may service either one; in a fault-free state of the invariant at most one is
pending. -/
def Obligations.EitherPendingEventMayBeServiced : Prop :=
  (∀ s : State, s.active = true → s.pendHt = true → s.pendTc = true →
    ∃ t u : State, exec .refillHt s = .next t ∧ exec .refillTc s = .next u ∧ t.pendHt = false ∧ u.pendTc = false) ∧
  ∀ s : State, s.Inv → s.noFault = true → ¬(s.pendHt = true ∧ s.pendTc = true)

/-- R168: an event just raised at the end of a half may wait 23 further EMIT steps, and no more: the 24th, which sends
the last unit of the other half, raises F_UNDERRUN. -/
def Obligations.RefillDeadlineIsTwentyThreeUnits : Prop :=
  ∀ (s : State) (k : Nat), s.active = true → s.fUnderrun = false →
    ((s.rp.val = 24 ∧ s.pendHt = true ∧ s.pendTc = false) ∨
      (s.rp.val = 0 ∧ s.pendTc = true ∧ s.pendHt = false)) → k ≤ 24 →
    ∃ t : State, execAll (List.replicate k .emit) s = .next t ∧ t.active = true ∧
      (t.fUnderrun = true ↔ k = 24)

/-- R101: the derived phase changes only by the table's transitions; a TRANSMIT in RESET or ENCODING also faults. -/
def Obligations.PhaseTransitionsFollowTheTable : Prop :=
  ∀ (i : Instr) (s t : State), exec i s = .next t →
    (i = .transmit → s.phase ≠ .idle → t.fStartBusy = true) ∧
    t.phase =
      match i with
      | .transmit =>
        if s.phase = .idle then (if 1 ≤ s.cfg.R then .reset else .encoding) else s.phase
      | .refillHt | .refillTc =>
        if s.phase = .reset then (if 1 < s.resetLeft.toNat then .reset else .encoding)
        else if s.ledIndex.toNat ≤ s.cfg.N then .encoding
        else .idle
      | .reset => .idle
      | .wrpix _ _ | .rdpix _ | .rdstat | .illegal _ | .emit => s.phase

/-! ### Who may write what (10_state.md, the access matrix R39) -/

/-- R21: `active` is set only by an accepted TRANSMIT, which always sets it, and cleared only by the STOP a refill ends
in or by RESET; HOST reads it as STATUS.BUSY. -/
def Obligations.ActiveIsWrittenOnlyByStartStopReset : Prop :=
  ∀ (i : Instr) (s t : State), exec i s = .next t →
    t.status.getLsbD 0 = t.active ∧ (i = .transmit → t.active = true) ∧ (i = .reset → t.active = false) ∧
    (s.active = false → t.active = true → i = .transmit) ∧
    (s.active = true → t.active = false →
      i = .reset ∨
        ((i = .refillHt ∨ i = .refillTc) ∧ s.resetLeft.toNat = 0 ∧ s.cfg.N < s.ledIndex.toNat ∧ t.done = true))

/-- R23 and R24: the two counters. TRANSMIT loads them, a refill moves exactly one of them by one unless it stops,
RESET clears them, and nothing else writes them; neither wraps in a state of the invariant. -/
def Obligations.CountersMoveOnlyAsStated : Prop :=
  ∀ (i : Instr) (s t : State), s.Inv → exec i s = .next t →
    match i with
    | .transmit =>
      if s.active then t.ledIndex = s.ledIndex ∧ t.resetLeft = s.resetLeft
      else t.ledIndex.toNat = 0 ∧ t.resetLeft.toNat = s.cfg.R
    | .refillHt | .refillTc =>
      if 0 < s.resetLeft.toNat then t.ledIndex = s.ledIndex ∧ t.resetLeft.toNat + 1 = s.resetLeft.toNat
      else if s.ledIndex.toNat ≤ s.cfg.N then
        t.ledIndex.toNat = s.ledIndex.toNat + 1 ∧ t.resetLeft = s.resetLeft
      else t.ledIndex.toNat = s.cfg.N + 1 ∧ t.resetLeft = s.resetLeft
    | .reset => t.ledIndex.toNat = 0 ∧ t.resetLeft.toNat = 0
    | .wrpix _ _ | .rdpix _ | .rdstat | .illegal _ | .emit =>
      t.ledIndex = s.ledIndex ∧ t.resetLeft = s.resetLeft

/-- R26: what each step does to SER's read position; a refill, and the STOP in it, leave it. -/
def Obligations.ReadPositionMovesOnlyAsStated : Prop :=
  ∀ (i : Instr) (s t : State), exec i s = .next t →
    t.rp.val =
      match i with
      | .transmit => if s.active then s.rp.val else 0
      | .emit => (s.rp.val + 1) % 48
      | .reset => 0
      | .wrpix _ _ | .rdpix _ | .rdstat | .illegal _ | .refillHt | .refillTc => s.rp.val

/-- R27: what sets and what clears the pending flags. -/
def Obligations.PendingFlagsChangeOnlyAsStated : Prop :=
  ∀ (i : Instr) (s t : State), exec i s = .next t →
    (t.pendHt, t.pendTc) =
      match i with
      | .transmit => if s.active then (s.pendHt, s.pendTc) else (false, false)
      | .emit => (s.pendHt || s.rp == 23, s.pendTc || s.rp == 47)
      | .refillHt => (false, s.pendTc && t.active)
      | .refillTc => (s.pendHt && t.active, false)
      | .reset => (false, false)
      | .wrpix _ _ | .rdpix _ | .rdstat | .illegal _ => (s.pendHt, s.pendTc)

/-- R28: STOP sets `done`; an accepted TRANSMIT and RESET clear it; nothing else writes it; it drives IRQ_DONE. -/
def Obligations.DoneChangesOnlyAsStated : Prop :=
  ∀ (i : Instr) (s t : State), exec i s = .next t →
    t.irqDone = t.done ∧
    t.done =
      match i with
      | .transmit => s.done && s.active
      | .refillHt | .refillTc => s.done || !t.active
      | .reset => false
      | .wrpix _ _ | .rdpix _ | .rdstat | .illegal _ | .emit => s.done

/-- R29 and R131: a fault bit, once set, stays set by every step but RESET, and RESET clears all four. -/
def Obligations.FaultBitsAreSticky : Prop :=
  ∀ (i : Instr) (s t : State) (f : FaultBit), exec i s = .next t →
    (i ≠ .reset → s.hasFault f = true → t.hasFault f = true) ∧ (i = .reset → t.hasFault f = false)

/-- R132 to R135: each fault bit has the one cause its rule states, and the cause always sets it; R141: one step raises
at most one fault, and a refill none. -/
def Obligations.EachFaultHasItsOneCause : Prop :=
  ∀ (i : Instr) (s t : State) (f : FaultBit), exec i s = .next t → s.hasFault f = false →
    (t.hasFault f = true ↔
      match f with
      | .illegalCmd => ∃ w, i = .illegal w
      | .startBusy => i = .transmit ∧ s.active = true
      | .fbWriteBusy => ∃ idx p, i = .wrpix idx p ∧ idx.toNat < s.cfg.N ∧ s.active = true
      | .underrun => i = .emit ∧ (s.rp.val = 23 ∨ s.rp.val = 47) ∧ (s.pendHt = true ∨ s.pendTc = true)) ∧
    (t.hasFault f = true → i ≠ .refillHt ∧ i ≠ .refillTc ∧
      ∀ g : FaultBit, s.hasFault g = false → t.hasFault g = true → f = g)

/-- R30 and R39: the frame buffer changes only by WRPIX, at the one index it names, and by RESET. -/
def Obligations.FrameBufferIsWrittenOnlyByWrpixAndReset : Prop :=
  ∀ (i : Instr) (s t : State), exec i s = .next t → i ≠ .reset →
    (∀ idx p, i ≠ .wrpix idx p) ∧ t.fb = s.fb ∨
    (∃ idx p, i = .wrpix idx p ∧ ∀ n : Nat, n ≠ idx.toNat → t.pixel n = s.pixel n)

/-- R25: the double buffer changes only by an accepted TRANSMIT, a refill of the half it names, and RESET. -/
def Obligations.DoubleBufferIsWrittenOnlyAsStated : Prop :=
  ∀ (i : Instr) (s t : State), exec i s = .next t →
    match i with
    | .transmit => s.active = true → t.buf = s.buf
    | .refillHt => t.buf.second = s.buf.second
    | .refillTc => t.buf.first = s.buf.first
    | .reset => ∀ j : Fin 48, t.buf.unit j = 0x00#8
    | .wrpix _ _ | .rdpix _ | .rdstat | .illegal _ | .emit => t.buf = s.buf

/-- R31: WIRE only grows, by one record at most: `Unit` for an EMIT, `Start` for an accepted TRANSMIT, `Reset` for a
RESET after power-on. -/
def Obligations.WireRecordsExactlyTheOutput : Prop :=
  ∀ (i : Instr) (s t : State), exec i s = .next t →
    t.wire = s.wire ++
      match i with
      | .transmit => if s.active then [] else [.start]
      | .emit => [.unit (s.buf.unit s.rp)]
      | .reset => [.reset]
      | .wrpix _ _ | .rdpix _ | .rdstat | .illegal _ | .refillHt | .refillTc => []

/-- R36: no step writes the configuration, a RESET included. -/
def Obligations.ConfigurationNeverChanges : Prop :=
  ∀ s t : State, step s = .next t → t.cfg = s.cfg

/-- The model's own fields, all of it the model's choice: no instruction touches the agenda or the turn counter
(DESIGN CHOICE, log entry 3), only a RESET changes the number `epoch` of the last RESET (DESIGN CHOICE, log entry 2), and
the block's own actions answer nothing on the command port (DESIGN CHOICE, log entry 5; R64 and R80 answer HOST commands
alone). That a RESET, too, leaves the agenda, the turn counter and the responses is log entry 19 (DESIGN CHOICE). -/
def Obligations.InstructionsLeaveTheModelsOwnFields : Prop :=
  ∀ (i : Instr) (s t : State), exec i s = .next t →
    t.agenda = s.agenda ∧ t.turns = s.turns ∧ (i ≠ .reset → t.epoch = s.epoch) ∧
    (i = .emit ∨ i = .refillHt ∨ i = .refillTc ∨ i = .reset → t.responses = s.responses)

/-- R87 for the commands, and the same for the block's own actions: fault bits already set change no effect but the
STATUS word that RDSTAT answers. -/
def Obligations.SetFaultBitsChangeNoEffect : Prop :=
  ∀ (i : Instr) (s t : State) (a b c d : Bool), i ≠ .rdstat → exec i s = .next t → ∃ u : State,
    exec i { s with fIllegalCmd := a, fStartBusy := b, fFbWriteBusy := c, fUnderrun := d } = .next u ∧
    t = { u with
          fIllegalCmd := t.fIllegalCmd, fStartBusy := t.fStartBusy, fFbWriteBusy := t.fFbWriteBusy
          fUnderrun := t.fUnderrun }

/-! ### Reset (70_reset_and_hazards.md) -/

/-- R160 and R161: RESET from any state completes; every element takes its reset value, the frame buffer is drawn anew
(the draw is the model's free value, log entry 2), WIRE gains `Reset`, STATUS reads 0, the line is low and IRQ_DONE is
0. -/
def Obligations.ResetFollowsItsRule : Prop :=
  ∀ s : State, ∃ t : State, exec .reset s = .next t ∧
    t.active = false ∧ t.ledIndex = 0 ∧ t.resetLeft = 0 ∧ (∀ j : Fin 48, t.buf.unit j = 0x00#8) ∧ t.rp = 0 ∧
    t.pendHt = false ∧ t.pendTc = false ∧ t.done = false ∧ (∀ f : FaultBit, t.hasFault f = false) ∧
    t.fb.length = s.cfg.N ∧ (∀ i : Nat, i < s.cfg.N → t.pixel i = Config.fbDraw t.epoch i) ∧
    t.wire = s.wire ++ [.reset] ∧ t.cfg = s.cfg ∧
    t.status = 0x00000000#32 ∧ t.irqDone = false ∧ ∀ i : Fin 8, t.line i = false

/-- R20, R160 and R161 at power-on, for every configuration: the reset values, an empty WIRE, and a block that accepts a
command at once. -/
def Obligations.PowerOnState : Prop :=
  ∀ c : Config,
    let s := State.powerOn c
    s.cfg = c ∧ s.active = false ∧ s.ledIndex = 0 ∧ s.resetLeft = 0 ∧ (∀ j : Fin 48, s.buf.unit j = 0x00#8) ∧
    s.rp = 0 ∧ s.pendHt = false ∧ s.pendTc = false ∧ s.done = false ∧ s.noFault = true ∧
    s.fb.length = c.N ∧ s.wire = [] ∧ s.status = 0x00000000#32 ∧ s.phase = .idle ∧
    ∃ t, exec .transmit s = .next t ∧ t.active = true ∧ t.responses = [{ code := .ok, data := 0 }]

/-- R162: a pixel drawn at RESET reads as the same value until it is written or a RESET draws again, whatever steps
come between. -/
def Obligations.DrawnPixelHoldsUntilWritten : Prop :=
  ∀ (s t u : State) (sched : List Instr) (n : Nat), exec .reset s = .next t → execAll sched t = .next u →
    Instr.reset ∉ sched → (∀ idx p, Instr.wrpix idx p ∈ sched → idx.toNat ≠ n) →
    u.pixel n = t.pixel n

/-! ### The step (20_memory.md R52; log entry 3) -/

/-- A step runs the decoded instruction: when the next input decodes to `i`, the step is `exec i` in the state without
that input (R12, R80). That the next input is the first of the agenda is the model's choice (DESIGN CHOICE, log entry
3), and so is the refusal of a label that names no action (DEDUCED, log entry 8): R65 says only that it names none. -/
def Obligations.StepRunsTheDecodedInput : Prop :=
  ∀ (s : State) (x : Input) (rest : List Input), s.agenda = x :: rest →
    (∀ i : Instr, decode x = .ok i → step s = exec i { s with agenda := rest }) ∧
    (∀ ev : Label, decode x = .error (.noAction ev) → step s = .refused (.noAction ev))

/-- With nothing on the agenda the turn is the block's: an idle block does nothing (R151, R164), and a running one takes
one of its own enabled actions or lets the turn pass; the order is open (R12, log entry 3). -/
def Obligations.OwnTurnsRunOnlyTheBlocksActions : Prop :=
  (∀ s : State, s.agenda = [] → s.active = false → step s = .next { s with turns := s.turns + 1 }) ∧
  (∀ s : State, s.agenda = [] → ∃ t : State, step s = .next t ∧
    (t = { s with turns := s.turns + 1 } ∨
      ∃ i : Instr, (i = .emit ∨ i = .refillHt ∨ i = .refillTc) ∧
        exec i { s with turns := s.turns + 1 } = .next t))

/-! ### Invariants (R38, R66) -/

/-- The invariant of R38 holds after the power-on RESET, for every configuration. -/
def Obligations.PowerOnMeetsTheInvariant : Prop :=
  (∀ c : Config, (State.powerOn c).Inv ∧ (State.powerOn c).LegalUnits) ∧ State.reset.Inv ∧ State.reset.LegalUnits

/-- Every step keeps the invariant of R38, from every state that meets it, faulted or not. -/
def Obligations.EveryStepKeepsTheInvariant : Prop :=
  ∀ s t : State, s.Inv → step s = .next t → t.Inv

/-- R38: the seven items, in every state that some order of instructions reaches from the power-on RESET of some
configuration with no fault bit set. -/
def Obligations.ReachableFaultFreeStatesMeetTheInvariants : Prop :=
  ∀ (c : Config) (sched : List Instr) (s : State), execAll sched (State.powerOn c) = .next s → s.noFault = true →
    s.resetLeft.toNat ≤ s.cfg.R ∧
    (0 < s.resetLeft.toNat → s.ledIndex.toNat = 0) ∧
    s.ledIndex.toNat ≤ s.cfg.N + 1 ∧
    ¬(s.pendHt = true ∧ s.pendTc = true) ∧
    (s.active = false → s.pendHt = false ∧ s.pendTc = false) ∧
    (s.done = true → s.active = false) ∧
    (s.active = true → (s.pendHt = true → 24 ≤ s.rp.val ∧ s.rp.val ≤ 47) ∧ (s.pendTc = true → s.rp.val ≤ 23))

/-- Every step keeps the double buffer and the wire to the three units `Z0`, `CODE0` and `CODE1` of R66, an underrun
or not. -/
def Obligations.OnlyTheThreeUnitsAreEverSent : Prop :=
  ∀ s t : State, s.LegalUnits → step s = .next t → t.LegalUnits

/-! ### The stream contract (41_stream_engine.md) -/

/-- R53: during a fault-free transmission the frame buffer is as it stood when TRANSMIT was accepted, at every step. -/
def Obligations.FrameIsCapturedAtTransmit : Prop :=
  ∀ (s : State) (body : List Instr) (u : State) (last : Instr) (t : State),
    FaultFreeTransmission s body u last t → t.fb = s.fb ∧
    ∀ before after : List Instr, body = before ++ after →
      ∃ v : State, execAll (.transmit :: before) s = .next v ∧ v.fb = s.fb ∧ v.active = true

/-- R110: in a fault-free transmission of frame buffer `F`, the units sent after its `Start` are the reset interval, the
24 units of each pixel in index order, and 0 to 23 zero units, whatever the order of the agents. -/
def Obligations.StreamContract : Prop :=
  ∀ (s : State) (body : List Instr) (u : State) (last : Instr) (t : State),
    FaultFreeTransmission s body u last t →
    ∃ j : Nat, j ≤ 23 ∧
      t.wire = s.wire ++ Record.start :: (streamUnits s.cfg s.fb j).map Record.unit

/-- R111: the counts of a fault-free transmission, the alternation of its refills, and the state it leaves. -/
def Obligations.TransmissionCounts : Prop :=
  ∀ (s : State) (body : List Instr) (u : State) (last : Instr) (t : State),
    FaultFreeTransmission s body u last t →
    (∃ j : Nat, j ≤ 23 ∧ (body ++ [last]).count .emit = (48 + 24 * s.cfg.R) + 24 * s.cfg.N + j ∧
      t.wire.length = s.wire.length + 1 + (body ++ [last]).count .emit) ∧
    (body ++ [last]).filter (fun i => i == .refillHt || i == .refillTc)
      = (List.range (s.cfg.R + s.cfg.N + 2)).map (fun m => if m % 2 = 0 then .refillHt else .refillTc) ∧
    t.ledIndex.toNat = s.cfg.N + 1 ∧ t.resetLeft.toNat = 0 ∧ t.done = true ∧ t.active = false

/-- A fault-free transmission exists from every idle fault-free state, with each number of phantom units that R110
leaves open (U1): the block can always finish. -/
def Obligations.EveryTransmissionCanFinish : Prop :=
  ∀ (s : State) (j : Nat), s.active = false → s.noFault = true → Memory.wf s.cfg.N s.fb = true → j ≤ 23 →
    ∃ (body : List Instr) (u : State) (last : Instr) (t : State),
      FaultFreeTransmission s body u last t ∧
      t.wire = s.wire ++ Record.start :: (streamUnits s.cfg s.fb j).map Record.unit

/-! ### HOST's scripts (30_encoding.md) -/

/-- R70: an in-range command line assembles to the command's word, and an operand out of its field's range is an
assembly error. -/
def Obligations.AssembledCommandsAreTheirWords : Prop :=
  ∀ (n : Nat) (idx r g b : Nat),
    assemble n (.wrpix idx r g b) =
      (if idx ≤ 65535 ∧ r ≤ 255 ∧ g ≤ 255 ∧ b ≤ 255 then
        .ok [.send (.command (BitVec.ofNat 64 (0x2000000000000000 + idx * 2 ^ 24 + r * 2 ^ 16 + g * 2 ^ 8 + b)))]
      else .error .outOfRange) ∧
    assemble n (.rdpix idx) =
      (if idx ≤ 65535 then .ok [.send (.command (BitVec.ofNat 64 (0x3000000000000000 + idx * 2 ^ 24)))]
      else .error .outOfRange) ∧
    assemble n .transmit = .ok [.send (.command 0x1000000000000000#64)] ∧
    assemble n .rdstat = .ok [.send (.command 0x4000000000000000#64)]
end

