-- ==== Sys2Proof/Laws/Config.lean ====
section
/-! SUPPORT. What each build-time check accepts and refuses. -/

namespace Sys2Proof

/-- R16's check gives out the parameters it was given, or nothing. -/
theorem Config.build_eq_ok {p : Params} {c : Config} : Config.build p = .ok c ↔ c.toParams = p := by
  unfold Config.build
  constructor
  · intro h
    split at h
    · cases h; rfl
    · split at h
      · cases h
      · split at h <;> cases h
  · rintro rfl
    rw [dif_pos c.ok]

/-- R16's check never refuses by R11. -/
theorem Config.build_ne_badTiming (p : Params) : Config.build p ≠ .error .badTiming := by
  unfold Config.build
  repeat' split
  all_goals simp

/-- R165's check accepts what R16's accepts and R11 allows (R165 item 1, U14). -/
theorem Config.buildConforming_eq_ok {p : Params} {c : Config} :
    Config.buildConforming p = .ok c ↔ Config.build p = .ok c ∧ p.conforms = true := by
  unfold Config.buildConforming
  split
  · split <;> simp_all
  · simp_all

/-- R165's check refuses as `badTiming` exactly the configurations that R16's accepts and R11 does not allow. -/
theorem Config.buildConforming_eq_badTiming {p : Params} :
    Config.buildConforming p = .error .badTiming ↔ (∃ c, Config.build p = .ok c) ∧ p.conforms = false := by
  unfold Config.buildConforming
  have never := Config.build_ne_badTiming p
  split
  · split <;> simp_all
  · simp_all

end Sys2Proof
end

