-- ==== Sys2Proof/Laws/State.lean ====
section
/-! SUPPORT. One lemma per field per update of the state, so that no later proof unfolds a record update. -/

namespace Sys2Proof.Machine

/-! ### respond -/

@[simp] theorem State.respond_cfg (s : State) (c : RespCode) (d : BitVec 32) : (s.respond c d).cfg = s.cfg := rfl

@[simp] theorem State.respond_active (s : State) (c : RespCode) (d : BitVec 32) :
    (s.respond c d).active = s.active := rfl

@[simp] theorem State.respond_ledIndex (s : State) (c : RespCode) (d : BitVec 32) :
    (s.respond c d).ledIndex = s.ledIndex := rfl

@[simp] theorem State.respond_resetLeft (s : State) (c : RespCode) (d : BitVec 32) :
    (s.respond c d).resetLeft = s.resetLeft := rfl

@[simp] theorem State.respond_buf (s : State) (c : RespCode) (d : BitVec 32) : (s.respond c d).buf = s.buf := rfl

@[simp] theorem State.respond_rp (s : State) (c : RespCode) (d : BitVec 32) : (s.respond c d).rp = s.rp := rfl

@[simp] theorem State.respond_pendHt (s : State) (c : RespCode) (d : BitVec 32) :
    (s.respond c d).pendHt = s.pendHt := rfl

@[simp] theorem State.respond_pendTc (s : State) (c : RespCode) (d : BitVec 32) :
    (s.respond c d).pendTc = s.pendTc := rfl

@[simp] theorem State.respond_done (s : State) (c : RespCode) (d : BitVec 32) : (s.respond c d).done = s.done := rfl

@[simp] theorem State.respond_fIllegalCmd (s : State) (c : RespCode) (d : BitVec 32) :
    (s.respond c d).fIllegalCmd = s.fIllegalCmd := rfl

@[simp] theorem State.respond_fStartBusy (s : State) (c : RespCode) (d : BitVec 32) :
    (s.respond c d).fStartBusy = s.fStartBusy := rfl

@[simp] theorem State.respond_fFbWriteBusy (s : State) (c : RespCode) (d : BitVec 32) :
    (s.respond c d).fFbWriteBusy = s.fFbWriteBusy := rfl

@[simp] theorem State.respond_fUnderrun (s : State) (c : RespCode) (d : BitVec 32) :
    (s.respond c d).fUnderrun = s.fUnderrun := rfl

@[simp] theorem State.respond_fb (s : State) (c : RespCode) (d : BitVec 32) : (s.respond c d).fb = s.fb := rfl

@[simp] theorem State.respond_wire (s : State) (c : RespCode) (d : BitVec 32) : (s.respond c d).wire = s.wire := rfl

@[simp] theorem State.respond_responses (s : State) (c : RespCode) (d : BitVec 32) :
    (s.respond c d).responses = s.responses ++ [{ code := c, data := d }] := rfl

@[simp] theorem State.respond_agenda (s : State) (c : RespCode) (d : BitVec 32) :
    (s.respond c d).agenda = s.agenda := rfl

@[simp] theorem State.respond_turns (s : State) (c : RespCode) (d : BitVec 32) :
    (s.respond c d).turns = s.turns := rfl

@[simp] theorem State.respond_epoch (s : State) (c : RespCode) (d : BitVec 32) :
    (s.respond c d).epoch = s.epoch := rfl

/-! ### record -/

@[simp] theorem State.record_cfg (s : State) (r : Record) : (s.record r).cfg = s.cfg := rfl

@[simp] theorem State.record_active (s : State) (r : Record) : (s.record r).active = s.active := rfl

@[simp] theorem State.record_ledIndex (s : State) (r : Record) : (s.record r).ledIndex = s.ledIndex := rfl

@[simp] theorem State.record_resetLeft (s : State) (r : Record) : (s.record r).resetLeft = s.resetLeft := rfl

@[simp] theorem State.record_buf (s : State) (r : Record) : (s.record r).buf = s.buf := rfl

@[simp] theorem State.record_rp (s : State) (r : Record) : (s.record r).rp = s.rp := rfl

@[simp] theorem State.record_pendHt (s : State) (r : Record) : (s.record r).pendHt = s.pendHt := rfl

@[simp] theorem State.record_pendTc (s : State) (r : Record) : (s.record r).pendTc = s.pendTc := rfl

@[simp] theorem State.record_done (s : State) (r : Record) : (s.record r).done = s.done := rfl

@[simp] theorem State.record_fIllegalCmd (s : State) (r : Record) : (s.record r).fIllegalCmd = s.fIllegalCmd := rfl

@[simp] theorem State.record_fStartBusy (s : State) (r : Record) : (s.record r).fStartBusy = s.fStartBusy := rfl

@[simp] theorem State.record_fFbWriteBusy (s : State) (r : Record) : (s.record r).fFbWriteBusy = s.fFbWriteBusy := rfl

@[simp] theorem State.record_fUnderrun (s : State) (r : Record) : (s.record r).fUnderrun = s.fUnderrun := rfl

@[simp] theorem State.record_fb (s : State) (r : Record) : (s.record r).fb = s.fb := rfl

@[simp] theorem State.record_wire (s : State) (r : Record) : (s.record r).wire = s.wire ++ [r] := rfl

@[simp] theorem State.record_responses (s : State) (r : Record) : (s.record r).responses = s.responses := rfl

@[simp] theorem State.record_agenda (s : State) (r : Record) : (s.record r).agenda = s.agenda := rfl

@[simp] theorem State.record_turns (s : State) (r : Record) : (s.record r).turns = s.turns := rfl

@[simp] theorem State.record_epoch (s : State) (r : Record) : (s.record r).epoch = s.epoch := rfl

/-! ### writePixel -/

@[simp] theorem State.writePixel_cfg (s : State) (i : Nat) (p : Pixel) : (s.writePixel i p).cfg = s.cfg := rfl

@[simp] theorem State.writePixel_active (s : State) (i : Nat) (p : Pixel) :
    (s.writePixel i p).active = s.active := rfl

@[simp] theorem State.writePixel_ledIndex (s : State) (i : Nat) (p : Pixel) :
    (s.writePixel i p).ledIndex = s.ledIndex := rfl

@[simp] theorem State.writePixel_resetLeft (s : State) (i : Nat) (p : Pixel) :
    (s.writePixel i p).resetLeft = s.resetLeft := rfl

@[simp] theorem State.writePixel_buf (s : State) (i : Nat) (p : Pixel) : (s.writePixel i p).buf = s.buf := rfl

@[simp] theorem State.writePixel_rp (s : State) (i : Nat) (p : Pixel) : (s.writePixel i p).rp = s.rp := rfl

@[simp] theorem State.writePixel_pendHt (s : State) (i : Nat) (p : Pixel) :
    (s.writePixel i p).pendHt = s.pendHt := rfl

@[simp] theorem State.writePixel_pendTc (s : State) (i : Nat) (p : Pixel) :
    (s.writePixel i p).pendTc = s.pendTc := rfl

@[simp] theorem State.writePixel_done (s : State) (i : Nat) (p : Pixel) : (s.writePixel i p).done = s.done := rfl

@[simp] theorem State.writePixel_fIllegalCmd (s : State) (i : Nat) (p : Pixel) :
    (s.writePixel i p).fIllegalCmd = s.fIllegalCmd := rfl

@[simp] theorem State.writePixel_fStartBusy (s : State) (i : Nat) (p : Pixel) :
    (s.writePixel i p).fStartBusy = s.fStartBusy := rfl

@[simp] theorem State.writePixel_fFbWriteBusy (s : State) (i : Nat) (p : Pixel) :
    (s.writePixel i p).fFbWriteBusy = s.fFbWriteBusy := rfl

@[simp] theorem State.writePixel_fUnderrun (s : State) (i : Nat) (p : Pixel) :
    (s.writePixel i p).fUnderrun = s.fUnderrun := rfl

@[simp] theorem State.writePixel_fb (s : State) (i : Nat) (p : Pixel) : (s.writePixel i p).fb = s.fb.write i p := rfl

@[simp] theorem State.writePixel_wire (s : State) (i : Nat) (p : Pixel) : (s.writePixel i p).wire = s.wire := rfl

@[simp] theorem State.writePixel_responses (s : State) (i : Nat) (p : Pixel) :
    (s.writePixel i p).responses = s.responses := rfl

@[simp] theorem State.writePixel_agenda (s : State) (i : Nat) (p : Pixel) :
    (s.writePixel i p).agenda = s.agenda := rfl

@[simp] theorem State.writePixel_turns (s : State) (i : Nat) (p : Pixel) : (s.writePixel i p).turns = s.turns := rfl

@[simp] theorem State.writePixel_epoch (s : State) (i : Nat) (p : Pixel) : (s.writePixel i p).epoch = s.epoch := rfl

/-! ### raise -/

@[simp] theorem State.raise_cfg (s : State) (f : FaultBit) :
    (s.raise f).cfg = s.cfg := by cases f <;> simp [State.raise]

@[simp] theorem State.raise_active (s : State) (f : FaultBit) :
    (s.raise f).active = s.active := by cases f <;> simp [State.raise]

@[simp] theorem State.raise_ledIndex (s : State) (f : FaultBit) :
    (s.raise f).ledIndex = s.ledIndex := by cases f <;> simp [State.raise]

@[simp] theorem State.raise_resetLeft (s : State) (f : FaultBit) :
    (s.raise f).resetLeft = s.resetLeft := by cases f <;> simp [State.raise]

@[simp] theorem State.raise_buf (s : State) (f : FaultBit) :
    (s.raise f).buf = s.buf := by cases f <;> simp [State.raise]

@[simp] theorem State.raise_rp (s : State) (f : FaultBit) : (s.raise f).rp = s.rp := by cases f <;> simp [State.raise]

@[simp] theorem State.raise_pendHt (s : State) (f : FaultBit) :
    (s.raise f).pendHt = s.pendHt := by cases f <;> simp [State.raise]

@[simp] theorem State.raise_pendTc (s : State) (f : FaultBit) :
    (s.raise f).pendTc = s.pendTc := by cases f <;> simp [State.raise]

@[simp] theorem State.raise_done (s : State) (f : FaultBit) :
    (s.raise f).done = s.done := by cases f <;> simp [State.raise]

@[simp] theorem State.raise_fIllegalCmd (s : State) (f : FaultBit) :
    (s.raise f).fIllegalCmd = (s.fIllegalCmd || f == .illegalCmd) := by cases f <;> simp [State.raise]

@[simp] theorem State.raise_fStartBusy (s : State) (f : FaultBit) :
    (s.raise f).fStartBusy = (s.fStartBusy || f == .startBusy) := by cases f <;> simp [State.raise]

@[simp] theorem State.raise_fFbWriteBusy (s : State) (f : FaultBit) :
    (s.raise f).fFbWriteBusy = (s.fFbWriteBusy || f == .fbWriteBusy) := by cases f <;> simp [State.raise]

@[simp] theorem State.raise_fUnderrun (s : State) (f : FaultBit) :
    (s.raise f).fUnderrun = (s.fUnderrun || f == .underrun) := by cases f <;> simp [State.raise]

@[simp] theorem State.raise_fb (s : State) (f : FaultBit) : (s.raise f).fb = s.fb := by cases f <;> simp [State.raise]

@[simp] theorem State.raise_wire (s : State) (f : FaultBit) :
    (s.raise f).wire = s.wire := by cases f <;> simp [State.raise]

@[simp] theorem State.raise_responses (s : State) (f : FaultBit) :
    (s.raise f).responses = s.responses := by cases f <;> simp [State.raise]

@[simp] theorem State.raise_agenda (s : State) (f : FaultBit) :
    (s.raise f).agenda = s.agenda := by cases f <;> simp [State.raise]

@[simp] theorem State.raise_turns (s : State) (f : FaultBit) :
    (s.raise f).turns = s.turns := by cases f <;> simp [State.raise]

@[simp] theorem State.raise_epoch (s : State) (f : FaultBit) :
    (s.raise f).epoch = s.epoch := by cases f <;> simp [State.raise]

/-! ### setPending -/

@[simp] theorem State.setPending_cfg (s : State) (h : Half) (v : Bool) :
    (s.setPending h v).cfg = s.cfg := by cases h <;> rfl

@[simp] theorem State.setPending_active (s : State) (h : Half) (v : Bool) :
    (s.setPending h v).active = s.active := by cases h <;> rfl

@[simp] theorem State.setPending_ledIndex (s : State) (h : Half) (v : Bool) :
    (s.setPending h v).ledIndex = s.ledIndex := by cases h <;> rfl

@[simp] theorem State.setPending_resetLeft (s : State) (h : Half) (v : Bool) :
    (s.setPending h v).resetLeft = s.resetLeft := by cases h <;> rfl

@[simp] theorem State.setPending_buf (s : State) (h : Half) (v : Bool) :
    (s.setPending h v).buf = s.buf := by cases h <;> rfl

@[simp] theorem State.setPending_rp (s : State) (h : Half) (v : Bool) :
    (s.setPending h v).rp = s.rp := by cases h <;> rfl

@[simp] theorem State.setPending_pendHt (s : State) (h : Half) (v : Bool) :
    (s.setPending h v).pendHt = if h = .first then v else s.pendHt := by cases h <;> rfl

@[simp] theorem State.setPending_pendTc (s : State) (h : Half) (v : Bool) :
    (s.setPending h v).pendTc = if h = .second then v else s.pendTc := by cases h <;> rfl

@[simp] theorem State.setPending_done (s : State) (h : Half) (v : Bool) :
    (s.setPending h v).done = s.done := by cases h <;> rfl

@[simp] theorem State.setPending_fIllegalCmd (s : State) (h : Half) (v : Bool) :
    (s.setPending h v).fIllegalCmd = s.fIllegalCmd := by cases h <;> rfl

@[simp] theorem State.setPending_fStartBusy (s : State) (h : Half) (v : Bool) :
    (s.setPending h v).fStartBusy = s.fStartBusy := by cases h <;> rfl

@[simp] theorem State.setPending_fFbWriteBusy (s : State) (h : Half) (v : Bool) :
    (s.setPending h v).fFbWriteBusy = s.fFbWriteBusy := by cases h <;> rfl

@[simp] theorem State.setPending_fUnderrun (s : State) (h : Half) (v : Bool) :
    (s.setPending h v).fUnderrun = s.fUnderrun := by cases h <;> rfl

@[simp] theorem State.setPending_fb (s : State) (h : Half) (v : Bool) :
    (s.setPending h v).fb = s.fb := by cases h <;> rfl

@[simp] theorem State.setPending_wire (s : State) (h : Half) (v : Bool) :
    (s.setPending h v).wire = s.wire := by cases h <;> rfl

@[simp] theorem State.setPending_responses (s : State) (h : Half) (v : Bool) :
    (s.setPending h v).responses = s.responses := by cases h <;> rfl

@[simp] theorem State.setPending_agenda (s : State) (h : Half) (v : Bool) :
    (s.setPending h v).agenda = s.agenda := by cases h <;> rfl

@[simp] theorem State.setPending_turns (s : State) (h : Half) (v : Bool) :
    (s.setPending h v).turns = s.turns := by cases h <;> rfl

@[simp] theorem State.setPending_epoch (s : State) (h : Half) (v : Bool) :
    (s.setPending h v).epoch = s.epoch := by cases h <;> rfl

/-! ### startTransmission -/

@[simp] theorem State.startTransmission_cfg (s : State) : (s.startTransmission).cfg = s.cfg := rfl

@[simp] theorem State.startTransmission_active (s : State) : (s.startTransmission).active = true := rfl

@[simp] theorem State.startTransmission_ledIndex (s : State) : (s.startTransmission).ledIndex = 0 := rfl

@[simp] theorem State.startTransmission_resetLeft (s : State) :
    (s.startTransmission).resetLeft = BitVec.ofNat 8 s.cfg.R := rfl

@[simp] theorem State.startTransmission_buf (s : State) : (s.startTransmission).buf = zeroBuf := rfl

@[simp] theorem State.startTransmission_rp (s : State) : (s.startTransmission).rp = 0 := rfl

@[simp] theorem State.startTransmission_pendHt (s : State) : (s.startTransmission).pendHt = false := rfl

@[simp] theorem State.startTransmission_pendTc (s : State) : (s.startTransmission).pendTc = false := rfl

@[simp] theorem State.startTransmission_done (s : State) : (s.startTransmission).done = false := rfl

@[simp] theorem State.startTransmission_fIllegalCmd (s : State) :
    (s.startTransmission).fIllegalCmd = s.fIllegalCmd := rfl

@[simp] theorem State.startTransmission_fStartBusy (s : State) :
    (s.startTransmission).fStartBusy = s.fStartBusy := rfl

@[simp] theorem State.startTransmission_fFbWriteBusy (s : State) :
    (s.startTransmission).fFbWriteBusy = s.fFbWriteBusy := rfl

@[simp] theorem State.startTransmission_fUnderrun (s : State) : (s.startTransmission).fUnderrun = s.fUnderrun := rfl

@[simp] theorem State.startTransmission_fb (s : State) : (s.startTransmission).fb = s.fb := rfl

@[simp] theorem State.startTransmission_wire (s : State) : (s.startTransmission).wire = s.wire := rfl

@[simp] theorem State.startTransmission_responses (s : State) : (s.startTransmission).responses = s.responses := rfl

@[simp] theorem State.startTransmission_agenda (s : State) : (s.startTransmission).agenda = s.agenda := rfl

@[simp] theorem State.startTransmission_turns (s : State) : (s.startTransmission).turns = s.turns := rfl

@[simp] theorem State.startTransmission_epoch (s : State) : (s.startTransmission).epoch = s.epoch := rfl

/-! ### stop -/

@[simp] theorem State.stop_cfg (s : State) : (s.stop).cfg = s.cfg := rfl

@[simp] theorem State.stop_active (s : State) : (s.stop).active = false := rfl

@[simp] theorem State.stop_ledIndex (s : State) : (s.stop).ledIndex = s.ledIndex := rfl

@[simp] theorem State.stop_resetLeft (s : State) : (s.stop).resetLeft = s.resetLeft := rfl

@[simp] theorem State.stop_buf (s : State) : (s.stop).buf = s.buf := rfl

@[simp] theorem State.stop_rp (s : State) : (s.stop).rp = s.rp := rfl

@[simp] theorem State.stop_pendHt (s : State) : (s.stop).pendHt = false := rfl

@[simp] theorem State.stop_pendTc (s : State) : (s.stop).pendTc = false := rfl

@[simp] theorem State.stop_done (s : State) : (s.stop).done = true := rfl

@[simp] theorem State.stop_fIllegalCmd (s : State) : (s.stop).fIllegalCmd = s.fIllegalCmd := rfl

@[simp] theorem State.stop_fStartBusy (s : State) : (s.stop).fStartBusy = s.fStartBusy := rfl

@[simp] theorem State.stop_fFbWriteBusy (s : State) : (s.stop).fFbWriteBusy = s.fFbWriteBusy := rfl

@[simp] theorem State.stop_fUnderrun (s : State) : (s.stop).fUnderrun = s.fUnderrun := rfl

@[simp] theorem State.stop_fb (s : State) : (s.stop).fb = s.fb := rfl

@[simp] theorem State.stop_wire (s : State) : (s.stop).wire = s.wire := rfl

@[simp] theorem State.stop_responses (s : State) : (s.stop).responses = s.responses := rfl

@[simp] theorem State.stop_agenda (s : State) : (s.stop).agenda = s.agenda := rfl

@[simp] theorem State.stop_turns (s : State) : (s.stop).turns = s.turns := rfl

@[simp] theorem State.stop_epoch (s : State) : (s.stop).epoch = s.epoch := rfl

/-! ### clearAll -/

@[simp] theorem State.clearAll_cfg (s : State) : (s.clearAll).cfg = s.cfg := rfl

@[simp] theorem State.clearAll_active (s : State) : (s.clearAll).active = false := rfl

@[simp] theorem State.clearAll_ledIndex (s : State) : (s.clearAll).ledIndex = 0 := rfl

@[simp] theorem State.clearAll_resetLeft (s : State) : (s.clearAll).resetLeft = 0 := rfl

@[simp] theorem State.clearAll_buf (s : State) : (s.clearAll).buf = zeroBuf := rfl

@[simp] theorem State.clearAll_rp (s : State) : (s.clearAll).rp = 0 := rfl

@[simp] theorem State.clearAll_pendHt (s : State) : (s.clearAll).pendHt = false := rfl

@[simp] theorem State.clearAll_pendTc (s : State) : (s.clearAll).pendTc = false := rfl

@[simp] theorem State.clearAll_done (s : State) : (s.clearAll).done = false := rfl

@[simp] theorem State.clearAll_fIllegalCmd (s : State) : (s.clearAll).fIllegalCmd = false := rfl

@[simp] theorem State.clearAll_fStartBusy (s : State) : (s.clearAll).fStartBusy = false := rfl

@[simp] theorem State.clearAll_fFbWriteBusy (s : State) : (s.clearAll).fFbWriteBusy = false := rfl

@[simp] theorem State.clearAll_fUnderrun (s : State) : (s.clearAll).fUnderrun = false := rfl

@[simp] theorem State.clearAll_fb (s : State) : (s.clearAll).fb = drawnFrame s.cfg.N (s.epoch + 1) := rfl

@[simp] theorem State.clearAll_wire (s : State) : (s.clearAll).wire = s.wire := rfl

@[simp] theorem State.clearAll_responses (s : State) : (s.clearAll).responses = s.responses := rfl

@[simp] theorem State.clearAll_agenda (s : State) : (s.clearAll).agenda = s.agenda := rfl

@[simp] theorem State.clearAll_turns (s : State) : (s.clearAll).turns = s.turns := rfl

@[simp] theorem State.clearAll_epoch (s : State) : (s.clearAll).epoch = s.epoch + 1 := rfl

/-! ### dropInput -/

@[simp] theorem State.dropInput_cfg (s : State) : (s.dropInput).cfg = s.cfg := rfl

@[simp] theorem State.dropInput_active (s : State) : (s.dropInput).active = s.active := rfl

@[simp] theorem State.dropInput_ledIndex (s : State) : (s.dropInput).ledIndex = s.ledIndex := rfl

@[simp] theorem State.dropInput_resetLeft (s : State) : (s.dropInput).resetLeft = s.resetLeft := rfl

@[simp] theorem State.dropInput_buf (s : State) : (s.dropInput).buf = s.buf := rfl

@[simp] theorem State.dropInput_rp (s : State) : (s.dropInput).rp = s.rp := rfl

@[simp] theorem State.dropInput_pendHt (s : State) : (s.dropInput).pendHt = s.pendHt := rfl

@[simp] theorem State.dropInput_pendTc (s : State) : (s.dropInput).pendTc = s.pendTc := rfl

@[simp] theorem State.dropInput_done (s : State) : (s.dropInput).done = s.done := rfl

@[simp] theorem State.dropInput_fIllegalCmd (s : State) : (s.dropInput).fIllegalCmd = s.fIllegalCmd := rfl

@[simp] theorem State.dropInput_fStartBusy (s : State) : (s.dropInput).fStartBusy = s.fStartBusy := rfl

@[simp] theorem State.dropInput_fFbWriteBusy (s : State) : (s.dropInput).fFbWriteBusy = s.fFbWriteBusy := rfl

@[simp] theorem State.dropInput_fUnderrun (s : State) : (s.dropInput).fUnderrun = s.fUnderrun := rfl

@[simp] theorem State.dropInput_fb (s : State) : (s.dropInput).fb = s.fb := rfl

@[simp] theorem State.dropInput_wire (s : State) : (s.dropInput).wire = s.wire := rfl

@[simp] theorem State.dropInput_responses (s : State) : (s.dropInput).responses = s.responses := rfl

@[simp] theorem State.dropInput_agenda (s : State) : (s.dropInput).agenda = s.agenda.tail := rfl

@[simp] theorem State.dropInput_turns (s : State) : (s.dropInput).turns = s.turns := rfl

@[simp] theorem State.dropInput_epoch (s : State) : (s.dropInput).epoch = s.epoch := rfl

/-! ### countTurn -/

@[simp] theorem State.countTurn_cfg (s : State) : (s.countTurn).cfg = s.cfg := rfl

@[simp] theorem State.countTurn_active (s : State) : (s.countTurn).active = s.active := rfl

@[simp] theorem State.countTurn_ledIndex (s : State) : (s.countTurn).ledIndex = s.ledIndex := rfl

@[simp] theorem State.countTurn_resetLeft (s : State) : (s.countTurn).resetLeft = s.resetLeft := rfl

@[simp] theorem State.countTurn_buf (s : State) : (s.countTurn).buf = s.buf := rfl

@[simp] theorem State.countTurn_rp (s : State) : (s.countTurn).rp = s.rp := rfl

@[simp] theorem State.countTurn_pendHt (s : State) : (s.countTurn).pendHt = s.pendHt := rfl

@[simp] theorem State.countTurn_pendTc (s : State) : (s.countTurn).pendTc = s.pendTc := rfl

@[simp] theorem State.countTurn_done (s : State) : (s.countTurn).done = s.done := rfl

@[simp] theorem State.countTurn_fIllegalCmd (s : State) : (s.countTurn).fIllegalCmd = s.fIllegalCmd := rfl

@[simp] theorem State.countTurn_fStartBusy (s : State) : (s.countTurn).fStartBusy = s.fStartBusy := rfl

@[simp] theorem State.countTurn_fFbWriteBusy (s : State) : (s.countTurn).fFbWriteBusy = s.fFbWriteBusy := rfl

@[simp] theorem State.countTurn_fUnderrun (s : State) : (s.countTurn).fUnderrun = s.fUnderrun := rfl

@[simp] theorem State.countTurn_fb (s : State) : (s.countTurn).fb = s.fb := rfl

@[simp] theorem State.countTurn_wire (s : State) : (s.countTurn).wire = s.wire := rfl

@[simp] theorem State.countTurn_responses (s : State) : (s.countTurn).responses = s.responses := rfl

@[simp] theorem State.countTurn_agenda (s : State) : (s.countTurn).agenda = s.agenda := rfl

@[simp] theorem State.countTurn_turns (s : State) : (s.countTurn).turns = s.turns + 1 := rfl

@[simp] theorem State.countTurn_epoch (s : State) : (s.countTurn).epoch = s.epoch := rfl

/-! ### pushInput -/

@[simp] theorem State.pushInput_cfg (s : State) (x : Input) : (s.pushInput x).cfg = s.cfg := rfl

@[simp] theorem State.pushInput_active (s : State) (x : Input) : (s.pushInput x).active = s.active := rfl

@[simp] theorem State.pushInput_ledIndex (s : State) (x : Input) : (s.pushInput x).ledIndex = s.ledIndex := rfl

@[simp] theorem State.pushInput_resetLeft (s : State) (x : Input) : (s.pushInput x).resetLeft = s.resetLeft := rfl

@[simp] theorem State.pushInput_buf (s : State) (x : Input) : (s.pushInput x).buf = s.buf := rfl

@[simp] theorem State.pushInput_rp (s : State) (x : Input) : (s.pushInput x).rp = s.rp := rfl

@[simp] theorem State.pushInput_pendHt (s : State) (x : Input) : (s.pushInput x).pendHt = s.pendHt := rfl

@[simp] theorem State.pushInput_pendTc (s : State) (x : Input) : (s.pushInput x).pendTc = s.pendTc := rfl

@[simp] theorem State.pushInput_done (s : State) (x : Input) : (s.pushInput x).done = s.done := rfl

@[simp] theorem State.pushInput_fIllegalCmd (s : State) (x : Input) :
    (s.pushInput x).fIllegalCmd = s.fIllegalCmd := rfl

@[simp] theorem State.pushInput_fStartBusy (s : State) (x : Input) : (s.pushInput x).fStartBusy = s.fStartBusy := rfl

@[simp] theorem State.pushInput_fFbWriteBusy (s : State) (x : Input) :
    (s.pushInput x).fFbWriteBusy = s.fFbWriteBusy := rfl

@[simp] theorem State.pushInput_fUnderrun (s : State) (x : Input) : (s.pushInput x).fUnderrun = s.fUnderrun := rfl

@[simp] theorem State.pushInput_fb (s : State) (x : Input) : (s.pushInput x).fb = s.fb := rfl

@[simp] theorem State.pushInput_wire (s : State) (x : Input) : (s.pushInput x).wire = s.wire := rfl

@[simp] theorem State.pushInput_responses (s : State) (x : Input) : (s.pushInput x).responses = s.responses := rfl

@[simp] theorem State.pushInput_agenda (s : State) (x : Input) : (s.pushInput x).agenda = x :: s.agenda := rfl

@[simp] theorem State.pushInput_turns (s : State) (x : Input) : (s.pushInput x).turns = s.turns := rfl

@[simp] theorem State.pushInput_epoch (s : State) (x : Input) : (s.pushInput x).epoch = s.epoch := rfl

end Sys2Proof.Machine
end

