-- ==== Sys2Proof/Laws/Ops.lean ====
section
/-! SUPPORT. What each shared operation does, said once. -/

namespace Sys2Proof.Machine

/-! ### The frame buffer -/

/-- The frame buffer's form says its length. -/
theorem Memory.wf_iff (n : Nat) (m : Memory) : Memory.wf n m = true ↔ m.length = n := by
  simp [Memory.wf]

/-- A write keeps the frame buffer's form. -/
theorem Memory.write_wf {n : Nat} {m : Memory} (h : Memory.wf n m = true) (i : Nat) (p : Pixel) :
    Memory.wf n (m.write i p) = true := by
  simpa [Memory.wf, Memory.write] using h

/-- A RESET's draw has the frame buffer's form. -/
theorem drawnFrame_wf (n epoch : Nat) : Memory.wf n (drawnFrame n epoch) = true := by
  simp [Memory.wf, drawnFrame]

@[simp] theorem Memory.length_write (m : Memory) (i : Nat) (p : Pixel) : (m.write i p).length = m.length := by
  simp [Memory.write]

/-- The state's read of a pixel depends on the frame buffer and the epoch alone. -/
theorem State.pixel_congr {s t : State} (hfb : t.fb = s.fb) (he : t.epoch = s.epoch) (i : Nat) :
    t.pixel i = s.pixel i := by
  simp [State.pixel, hfb, he]

/-- Read after write at the same index of the frame buffer. -/
theorem State.pixel_writePixel_same {s : State} {i : Nat} (h : i < s.fb.length) (p : Pixel) :
    (s.writePixel i p).pixel i = p := by
  simp [State.pixel, State.writePixel, Memory.write, List.getD_eq_getElem?_getD, h]

/-- A write leaves every other index alone. -/
theorem State.pixel_writePixel_other (s : State) {i j : Nat} (h : j ≠ i) (p : Pixel) :
    (s.writePixel i p).pixel j = s.pixel j := by
  simp [State.pixel, State.writePixel, Memory.write, List.getD_eq_getElem?_getD, List.getElem?_set_ne (Ne.symm h)]

/-- Every index of a drawn frame buffer reads as its draw, listed or not. -/
theorem State.pixel_of_drawn {s : State} {n : Nat} (h : s.fb = drawnFrame n s.epoch) (i : Nat) :
    s.pixel i = Config.fbDraw s.epoch i := by
  by_cases hi : i < n
  · simp [State.pixel, h, drawnFrame, List.getD_eq_getElem?_getD, hi]
  · simp [State.pixel, h, drawnFrame, List.getD_eq_getElem?_getD, hi]

/-- A pixel inside the frame buffer is the list's entry. -/
theorem State.pixel_eq_getElem (s : State) {i : Nat} (h : i < s.fb.length) : s.pixel i = s.fb[i] := by
  simp [State.pixel, List.getD_eq_getElem?_getD, h]

/-! ### The double buffer -/

/-- Rewriting half `k`: its 24 units are the new ones, and the other half is as before. -/
theorem Buf.unit_writeHalf (b : Buf) (k : Half) (us : HalfUnits) (j : Fin 48) :
    (b.writeHalf k us).unit j = if h : k.holds j = true then us[j.val - k.base]'(by
      simp [Half.holds] at h; omega) else b.unit j := by
  cases k
  · by_cases hj : j.val < 24 <;> simp [Buf.writeHalf, Buf.unit, Half.holds, Half.base, hj]
  · by_cases hj : j.val < 24
    · have : ¬24 ≤ j.val := by omega
      simp [Buf.writeHalf, Buf.unit, Half.holds, Half.base, hj, this]
    · have : 24 ≤ j.val := by omega
      simp [Buf.writeHalf, Buf.unit, Half.holds, Half.base, hj, this, j.isLt]

@[simp] theorem zeroHalf_getElem (u : Nat) (h : u < 24) : zeroHalf[u] = z0 := by simp [zeroHalf]

@[simp] theorem zeroBuf_unit (j : Fin 48) : zeroBuf.unit j = z0 := by
  simp [zeroBuf, Buf.unit]

/-- Unit `u` of a pixel's encoding. -/
theorem enc_getElem (c : Config) (p : Pixel) (u : Nat) (h : u < 24) :
    (enc c p)[u] = if unitBit p u then c.CODE1 else c.CODE0 := by simp [enc]

@[simp] theorem nextRp_val (rp : Fin 48) : (nextRp rp).val = (rp.val + 1) % 48 := rfl

/-! ### SER and RFL -/

/-- Everything one EMIT changes (R103). -/
theorem State.sendUnit_eq (s : State) :
    s.sendUnit = { s with
      wire := s.wire ++ [.unit (s.buf.unit s.rp)]
      fUnderrun := s.fUnderrun || (decide (s.rp.val = 23 ∨ s.rp.val = 47) && (s.pendHt || s.pendTc))
      pendHt := s.pendHt || decide (s.rp.val = 23)
      pendTc := s.pendTc || decide (s.rp.val = 47)
      rp := nextRp s.rp } := by
  have key : ∀ x y z : Bool, (if x = true then true else y) = (y || x) := by decide
  unfold State.sendUnit halfEndingAt
  by_cases h23 : s.rp.val = 23
  · have h47 : s.rp.val ≠ 47 := by omega
    cases hh : s.pendHt <;> cases ht : s.pendTc <;>
      simp [h23, State.record, State.finishHalf, State.setPending, State.raise, hh, ht]
  · by_cases h47 : s.rp.val = 47
    · cases hh : s.pendHt <;> cases ht : s.pendTc <;>
        simp [h47, State.record, State.finishHalf, State.setPending, State.raise, hh, ht]
    · simp [h23, h47, State.record]

/-- The four branches of a refill, each with its whole effect (R104 to R106). -/
theorem State.refill_cases (s : State) (k : Half) :
    (0 < s.resetLeft.toNat ∧ s.refill k = { s.setPending k false with
        buf := s.buf.writeHalf k zeroHalf, resetLeft := s.resetLeft - 1 }) ∨
    (s.resetLeft.toNat = 0 ∧ s.ledIndex.toNat < s.cfg.N ∧ s.refill k = { s.setPending k false with
        buf := s.buf.writeHalf k (enc s.cfg (s.pixel s.ledIndex.toNat)), ledIndex := s.ledIndex + 1 }) ∨
    (s.resetLeft.toNat = 0 ∧ s.ledIndex.toNat = s.cfg.N ∧ s.refill k = { s.setPending k false with
        buf := s.buf.writeHalf k zeroHalf, ledIndex := BitVec.ofNat 16 (s.cfg.N + 1) }) ∨
    (s.resetLeft.toNat = 0 ∧ s.cfg.N < s.ledIndex.toNat ∧ s.refill k = s.stop) := by
  unfold State.refill
  by_cases h0 : 0 < s.resetLeft.toNat
  · exact .inl ⟨h0, by simp [h0]⟩
  · have hz : s.resetLeft.toNat = 0 := by omega
    rcases Nat.lt_trichotomy s.ledIndex.toNat s.cfg.N with h | h | h
    · exact .inr (.inl ⟨hz, h, by simp [hz, h]⟩)
    · exact .inr (.inr (.inl ⟨hz, h, by simp [hz, h]⟩))
    · refine .inr (.inr (.inr ⟨hz, h, ?_⟩))
      have h1 : ¬s.ledIndex.toNat < s.cfg.N := by omega
      have h2 : ¬s.ledIndex.toNat = s.cfg.N := by omega
      cases k <;> simp [hz, h1, h2, State.stop, State.setPending]

/-- No fault bit is set exactly if none of the four is (R131). -/
theorem State.noFault_iff (s : State) : s.noFault = true ↔ ∀ f : FaultBit, s.hasFault f = false := by
  constructor
  · intro h f
    simp only [State.noFault, Bool.not_eq_true', Bool.or_eq_false_iff] at h
    obtain ⟨⟨⟨h1, h2⟩, h3⟩, h4⟩ := h
    cases f <;> assumption
  · intro h
    have h1 := h .illegalCmd
    have h2 := h .startBusy
    have h3 := h .fbWriteBusy
    have h4 := h .underrun
    simp only [State.hasFault] at h1 h2 h3 h4
    simp [State.noFault, h1, h2, h3, h4]

/-- The configuration's bounds (R5, R10). -/
theorem config_bounds (c : Config) : 1 ≤ c.N ∧ c.N ≤ 65534 ∧ c.R ≤ 255 := by
  have h := c.ok
  simp only [Params.wf, Params.lengthOk, Params.resetRefillsOk, Bool.and_eq_true, decide_eq_true_eq] at h
  omega

/-- The counters' steps do not wrap (R112). -/
theorem ledIndex_succ_toNat {c : Config} {x : BitVec 16} (h : x.toNat ≤ c.N) : (x + 1#16).toNat = x.toNat + 1 := by
  have := config_bounds c
  rw [BitVec.toNat_add]
  simp
  omega

theorem resetLeft_pred_toNat {x : BitVec 8} (h : 0 < x.toNat) : (x - 1#8).toNat = x.toNat - 1 := by
  have := x.isLt
  rw [BitVec.toNat_sub]
  simp
  omega

theorem ledIndex_past_toNat (c : Config) : (BitVec.ofNat 16 (c.N + 1)).toNat = c.N + 1 := by
  have := config_bounds c
  simp
  omega

theorem resetLeft_load_toNat (c : Config) : (BitVec.ofNat 8 c.R).toNat = c.R := by
  have := config_bounds c
  simp
  omega

end Sys2Proof.Machine
end

