-- ==== Sys2Proof/Laws/Exec.lean ====
section
/-! SUPPORT. When each instruction has a step and which state it leaves (inversion), and the same for the step. -/

namespace Sys2Proof.Machine

theorem exec_transmit_idle {s : State} (h : s.active = false) :
    exec .transmit s = .next ((s.startTransmission.record .start).respond .ok 0) := by
  simp [exec, execTransmit, h]

theorem exec_transmit_busy {s : State} (h : s.active = true) :
    exec .transmit s = .next ((s.raise .startBusy).respond .errBusy 0) := by
  simp [exec, execTransmit, h]

theorem exec_wrpix_bounds {s : State} {idx : BitVec 16} (h : s.cfg.N ≤ idx.toNat) (p : Pixel) :
    exec (.wrpix idx p) s = .next (s.respond .errBounds 0) := by
  simp [exec, execWrpix, State.inBounds, h]

theorem exec_wrpix_busy {s : State} {idx : BitVec 16} (h : idx.toNat < s.cfg.N) (hb : s.active = true) (p : Pixel) :
    exec (.wrpix idx p) s = .next ((s.raise .fbWriteBusy).respond .errBusy 0) := by
  have : ¬s.cfg.N ≤ idx.toNat := by omega
  simp [exec, execWrpix, State.inBounds, this, hb]

theorem exec_wrpix_idle {s : State} {idx : BitVec 16} (h : idx.toNat < s.cfg.N) (hb : s.active = false) (p : Pixel) :
    exec (.wrpix idx p) s = .next ((s.writePixel idx.toNat p).respond .ok 0) := by
  have : ¬s.cfg.N ≤ idx.toNat := by omega
  simp [exec, execWrpix, State.inBounds, this, hb]

theorem exec_rdpix_bounds {s : State} {idx : BitVec 16} (h : s.cfg.N ≤ idx.toNat) :
    exec (.rdpix idx) s = .next (s.respond .errBounds 0) := by
  simp [exec, execRdpix, State.inBounds, h]

theorem exec_rdpix_ok {s : State} {idx : BitVec 16} (h : idx.toNat < s.cfg.N) :
    exec (.rdpix idx) s = .next (s.respond .ok (pixelData (s.pixel idx.toNat))) := by
  have : ¬s.cfg.N ≤ idx.toNat := by omega
  simp [exec, execRdpix, State.inBounds, this]

theorem exec_rdstat (s : State) : exec .rdstat s = .next (s.respond .ok s.status) := rfl

theorem exec_illegal (w : CommandWord) (s : State) :
    exec (.illegal w) s = .next ((s.raise .illegalCmd).respond .errIllegal 0) := rfl

theorem exec_reset (s : State) : exec .reset s = .next (s.clearAll.record .reset) := rfl

/-- EMIT has a step exactly while a transmission runs (R103). -/
theorem exec_emit_next_iff {s t : State} : exec .emit s = .next t ↔ s.active = true ∧ t = s.sendUnit := by
  cases h : s.active <;> simp [exec, execEmit, h, eq_comm]

/-- A refill has a step exactly while its event is pending in a running transmission (R104). -/
theorem exec_refill_next_iff {s t : State} (k : Half) :
    exec (refillInstr k) s = .next t ↔ (s.active = true ∧ s.pending k = true) ∧ t = s.refill k := by
  cases k
  · cases ha : s.active <;> cases hp : s.pendHt <;>
      simp [exec, refillInstr, execRefillHt, State.enabled, State.pending, ha, hp, eq_comm]
  · cases ha : s.active <;> cases hp : s.pendTc <;>
      simp [exec, refillInstr, execRefillTc, State.enabled, State.pending, ha, hp, eq_comm]

/-- Every way an instruction can complete: one case per branch of its rule. -/
theorem exec_next_cases {i : Instr} {s t : State} (h : exec i s = .next t) :
    (i = .transmit ∧ s.active = true ∧ t = (s.raise .startBusy).respond .errBusy 0) ∨
    (i = .transmit ∧ s.active = false ∧ t = (s.startTransmission.record .start).respond .ok 0) ∨
    (∃ idx p, i = .wrpix idx p ∧ s.cfg.N ≤ idx.toNat ∧ t = s.respond .errBounds 0) ∨
    (∃ idx p, i = .wrpix idx p ∧ idx.toNat < s.cfg.N ∧ s.active = true ∧
      t = (s.raise .fbWriteBusy).respond .errBusy 0) ∨
    (∃ idx p, i = .wrpix idx p ∧ idx.toNat < s.cfg.N ∧ s.active = false ∧
      t = (s.writePixel idx.toNat p).respond .ok 0) ∨
    (∃ idx, i = .rdpix idx ∧ s.cfg.N ≤ idx.toNat ∧ t = s.respond .errBounds 0) ∨
    (∃ idx, i = .rdpix idx ∧ idx.toNat < s.cfg.N ∧ t = s.respond .ok (pixelData (s.pixel idx.toNat))) ∨
    (i = .rdstat ∧ t = s.respond .ok s.status) ∨
    (∃ w, i = .illegal w ∧ t = (s.raise .illegalCmd).respond .errIllegal 0) ∨
    (i = .emit ∧ s.active = true ∧ t = s.sendUnit) ∨
    (∃ k, i = refillInstr k ∧ s.active = true ∧ s.pending k = true ∧ t = s.refill k) ∨
    (i = .reset ∧ t = s.clearAll.record .reset) := by
  cases i with
  | transmit =>
    cases ha : s.active
    · rw [exec_transmit_idle ha] at h; cases h; simp
    · rw [exec_transmit_busy ha] at h; cases h; simp
  | wrpix idx p =>
    by_cases hb : s.cfg.N ≤ idx.toNat
    · rw [exec_wrpix_bounds hb] at h; cases h; simp [hb]
    · have hb' : idx.toNat < s.cfg.N := by omega
      cases ha : s.active
      · rw [exec_wrpix_idle hb' ha] at h; cases h; simp [hb']
      · rw [exec_wrpix_busy hb' ha] at h; cases h; simp [hb']
  | rdpix idx =>
    by_cases hb : s.cfg.N ≤ idx.toNat
    · rw [exec_rdpix_bounds hb] at h; cases h; simp [hb]
    · have hb' : idx.toNat < s.cfg.N := by omega
      rw [exec_rdpix_ok hb'] at h; cases h; simp [hb']
  | rdstat => rw [exec_rdstat] at h; cases h; simp
  | illegal w => rw [exec_illegal] at h; cases h; simp
  | emit =>
    obtain ⟨ha, rfl⟩ := exec_emit_next_iff.1 h
    simp [ha]
  | refillHt =>
    obtain ⟨⟨ha, hp⟩, rfl⟩ := (exec_refill_next_iff .first).1 h
    exact .inr (.inr (.inr (.inr (.inr (.inr (.inr (.inr (.inr (.inr (.inl ⟨.first, rfl, ha, hp, rfl⟩))))))))))
  | refillTc =>
    obtain ⟨⟨ha, hp⟩, rfl⟩ := (exec_refill_next_iff .second).1 h
    exact .inr (.inr (.inr (.inr (.inr (.inr (.inr (.inr (.inr (.inr (.inl ⟨.second, rfl, ha, hp, rfl⟩))))))))))
  | reset => rw [exec_reset] at h; cases h; simp

/-- Every way a step can complete: the instruction of the next input, one of the block's own actions, or a turn that
passes. -/
theorem step_next_cases {s t : State} (h : step s = .next t) :
    (∃ x rest i, s.agenda = x :: rest ∧ decode x = .ok i ∧ exec i s.dropInput = .next t) ∨
    (s.agenda = [] ∧ ∃ a, s.enabled a = true ∧ exec (ownInstr a) s.countTurn = .next t) ∨
    (s.agenda = [] ∧ t = s.countTurn) := by
  unfold step State.fetch at h
  cases hag : s.agenda with
  | cons x rest =>
    cases hd : decode x with
    | ok i => simp only [hag, hd] at h; exact .inl ⟨x, rest, i, rfl, hd, h⟩
    | error e => cases e; simp [hag, hd] at h
  | nil =>
    simp only [hag] at h
    split at h
    · next i u heq =>
      split at heq
      · next he => cases heq; exact .inr (.inl ⟨rfl, _, he, h⟩)
      · cases heq
    · next u heq =>
      split at heq
      · cases heq
      · cases heq; cases h; exact .inr (.inr ⟨rfl, rfl⟩)
    · next ev heq => split at heq <;> cases heq

/-! ### Schedules -/

@[simp] theorem execAll_nil (s : State) : execAll [] s = .next s := rfl

/-- A schedule completes from `s` exactly if its first instruction does and the rest completes from there. -/
theorem execAll_cons_next_iff {i : Instr} {is : List Instr} {s t : State} :
    execAll (i :: is) s = .next t ↔ ∃ u, exec i s = .next u ∧ execAll is u = .next t := by
  cases h : exec i s <;> simp [execAll, h]

/-- Schedules compose. -/
theorem execAll_append_next_iff {is js : List Instr} {s t : State} :
    execAll (is ++ js) s = .next t ↔ ∃ u, execAll is s = .next u ∧ execAll js u = .next t := by
  induction is generalizing s with
  | nil => simp
  | cons i is ih =>
    simp only [List.cons_append, execAll_cons_next_iff, ih]
    constructor
    · rintro ⟨u, hu, v, hv, ht⟩; exact ⟨v, ⟨u, hu, hv⟩, ht⟩
    · rintro ⟨v, ⟨u, hu, hv⟩, ht⟩; exact ⟨u, hu, v, hv, ht⟩

end Sys2Proof.Machine
end

