-- ==== Sys2Proof/Laws/Words.lean ====
section
/-! SUPPORT. Fields of words as numbers, and the fields of a command word that was built from its fields. -/

namespace Sys2Proof

/-- Concatenation as a number (R14). -/
theorem toNat_append_eq {m n : Nat} (x : BitVec m) (y : BitVec n) :
    (x ++ y).toNat = x.toNat * 2 ^ n + y.toNat := by
  rw [BitVec.toNat_append, Nat.shiftLeft_eq, Nat.mul_comm, Nat.two_pow_add_eq_or_of_lt y.isLt]

/-- A field as a number (R14). -/
theorem toNat_field {n : Nat} (x : BitVec n) (lo len : Nat) :
    (x.extractLsb' lo len).toNat = x.toNat / 2 ^ lo % 2 ^ len := by
  simp [BitVec.extractLsb'_toNat, Nat.shiftRight_eq_div_pow]

/-- A command word as a number (R60). -/
theorem commandWord_toNat (op : BitVec 4) (idx : BitVec 16) (p : Pixel) :
    (commandWord op idx p).toNat
      = op.toNat * 2 ^ 60 + idx.toNat * 2 ^ 24 + p.r.toNat * 2 ^ 16 + p.g.toNat * 2 ^ 8 + p.b.toNat := by
  simp only [commandWord, toNat_append_eq, BitVec.toNat_ofNat]
  omega

theorem op_commandWord (op : BitVec 4) (idx : BitVec 16) (p : Pixel) :
    (commandWord op idx p).extractLsb' 60 4 = op := by
  apply BitVec.eq_of_toNat_eq
  rw [toNat_field, commandWord_toNat]
  have := op.isLt; have := idx.isLt; have := p.r.isLt; have := p.g.isLt; have := p.b.isLt
  omega

theorem rsv_commandWord (op : BitVec 4) (idx : BitVec 16) (p : Pixel) :
    (commandWord op idx p).extractLsb' 40 20 = 0#20 := by
  apply BitVec.eq_of_toNat_eq
  rw [toNat_field, commandWord_toNat]
  have := op.isLt; have := idx.isLt; have := p.r.isLt; have := p.g.isLt; have := p.b.isLt
  simp only [BitVec.toNat_ofNat]
  omega

theorem idx_commandWord (op : BitVec 4) (idx : BitVec 16) (p : Pixel) :
    (commandWord op idx p).extractLsb' 24 16 = idx := by
  apply BitVec.eq_of_toNat_eq
  rw [toNat_field, commandWord_toNat]
  have := op.isLt; have := idx.isLt; have := p.r.isLt; have := p.g.isLt; have := p.b.isLt
  omega

theorem rgb_commandWord (op : BitVec 4) (idx : BitVec 16) (p : Pixel) :
    (commandWord op idx p).extractLsb' 0 24 = p.r ++ p.g ++ p.b := by
  apply BitVec.eq_of_toNat_eq
  rw [toNat_field, commandWord_toNat]
  have := op.isLt; have := idx.isLt; have := p.r.isLt; have := p.g.isLt; have := p.b.isLt
  simp only [toNat_append_eq]
  omega

/-- The pixel field of a built command word is the pixel. -/
theorem pixelField_commandWord (op : BitVec 4) (idx : BitVec 16) (p : Pixel) :
    pixelField (commandWord op idx p) = p := by
  obtain ⟨r, g, b⟩ := p
  have := op.isLt; have := idx.isLt; have := r.isLt; have := g.isLt; have := b.isLt
  simp only [pixelField, Pixel.mk.injEq]
  refine ⟨?_, ?_, ?_⟩ <;>
  · apply BitVec.eq_of_toNat_eq
    simp only [toNat_field, commandWord_toNat]
    omega

/-- A word whose RSV is zero is built from its own fields. -/
theorem commandWord_of_fields {w : CommandWord} (h : w.extractLsb' 40 20 = 0#20) :
    commandWord (w.extractLsb' 60 4) (idxField w) (pixelField w) = w := by
  apply BitVec.eq_of_toNat_eq
  have h' := congrArg BitVec.toNat h
  rw [toNat_field] at h'
  simp only [BitVec.toNat_ofNat] at h'
  have := w.isLt
  rw [commandWord_toNat]
  simp only [idxField, pixelField, toNat_field]
  omega

end Sys2Proof
end

