-- ==== Sys2Proof/Laws/Flags.lean ====
section
/-! SUPPORT. STATUS and the response word as numbers. -/

namespace Sys2Proof.Machine

/-- STATUS as a number: each field times the weight of its lowest bit (R32). -/
theorem State.status_toNat (s : State) :
    s.status.toNat = s.ledIndex.toNat * 2 ^ 16 + s.fIllegalCmd.toNat * 2 ^ 11 + s.fUnderrun.toNat * 2 ^ 10
      + s.fFbWriteBusy.toNat * 2 ^ 9 + s.fStartBusy.toNat * 2 ^ 8 + s.pendTc.toNat * 2 ^ 5 + s.pendHt.toNat * 2 ^ 4
      + s.done.toNat * 2 ^ 3 + s.phase.code.toNat * 2 + s.active.toNat := by
  simp only [State.status, toNat_append_eq, BitVec.toNat_ofBool, BitVec.toNat_ofNat]
  omega

/-- The response as a number (R64). -/
theorem Response.word_toNat (r : Response) : r.word.toNat = r.code.bits.toNat * 2 ^ 62 + r.data.toNat := by
  simp only [Response.word, toNat_append_eq, BitVec.toNat_ofNat]
  omega

/-- PHASE never takes the value 3 (R32). -/
theorem Phase.code_lt (p : Phase) : p.code.toNat < 3 := by cases p <;> decide

/-- The phase depends on `active` and `reset_left` alone (R22). -/
theorem State.phase_congr {s t : State} (ha : t.active = s.active) (hr : t.resetLeft = s.resetLeft) :
    t.phase = s.phase := by simp [State.phase, ha, hr]

end Sys2Proof.Machine
end

