-- ==== Sys2Proof/Laws/PerInstr.lean ====
section
/-! SUPPORT. Families of statements about every instruction as syntax, one lemma per constructor. -/

namespace Sys2Proof.Laws

/-- The internal actions are encoded as labels and the commands as command words, never the other way (R65): HOST
cannot issue an internal action. -/
def InputKind.Statement (i : Instr) : Prop :=
  (∃ ev, encode i = .label ev) ↔ i = .emit ∨ i = .refillHt ∨ i = .refillTc ∨ i = .reset

theorem InputKind.transmit : InputKind.Statement .transmit := by simp [InputKind.Statement, encode]
theorem InputKind.wrpix (idx : BitVec 16) (p : Pixel) : InputKind.Statement (.wrpix idx p) := by
  simp [InputKind.Statement, encode]
theorem InputKind.rdpix (idx : BitVec 16) : InputKind.Statement (.rdpix idx) := by simp [InputKind.Statement, encode]
theorem InputKind.rdstat : InputKind.Statement .rdstat := by simp [InputKind.Statement, encode]
theorem InputKind.illegal (w : CommandWord) : InputKind.Statement (.illegal w) := by
  simp [InputKind.Statement, encode]
theorem InputKind.emit : InputKind.Statement .emit := by simp [InputKind.Statement, encode]
theorem InputKind.refillHt : InputKind.Statement .refillHt := by simp [InputKind.Statement, encode]
theorem InputKind.refillTc : InputKind.Statement .refillTc := by simp [InputKind.Statement, encode]
theorem InputKind.reset : InputKind.Statement .reset := by simp [InputKind.Statement, encode]

end Sys2Proof.Laws
end

