-- ==== Sys2Proof/Tests/Slice0.lean ====
section
/-! SUPPORT. Tests: expected values are the spec's own vectors (95_test_vectors.md) or are worked out by hand from its
rules; and, for each statement with hypotheses, a state and operands that meet them. -/

namespace Sys2Proof.Tests

open Sys2Proof Sys2Proof.Machine

/-! ### Helpers -/

/-- The test configuration EX (D34) with the given strip length and reset refills. -/
def exParams (n r : Nat) : Params := { N := n, CODE0 := 0xC0, CODE1 := 0xF8, R := r, timing := default }

/-- EX with `N = 2`, `R = 1`. -/
def ex21 : Config := { toParams := exParams 2 1, ok := by decide }

/-- EX with `N = 2`, `R = 2`. -/
def ex22 : Config := { toParams := exParams 2 2, ok := by decide }

/-- EX with `N = 1`, `R = 0`. -/
def ex10 : Config := { toParams := exParams 1 0, ok := by decide }

/-- An idle block after RESET whose frame buffer has been written. -/
def idle (c : Config) (fb : Memory) : State := { State.powerOn c with fb := fb }

/-- The block of L2.3 and L2.4: `N = 2`, `FB = [(1,2,3),(4,5,6)]`, idle. -/
def idle2 : State := idle ex21 [⟨1, 2, 3⟩, ⟨4, 5, 6⟩]

/-- The same just after TRANSMIT. -/
def busy2 : State := { idle2 with active := true, resetLeft := 1 }

/-- The block of L2.8: `N = 1`, `R = 0`, encoding, SER at the given position. -/
def serAt (rp : Fin 48) (ht tc : Bool) : State :=
  { idle ex10 [⟨0, 0, 0⟩] with active := true, rp := rp, pendHt := ht, pendTc := tc }

/-- The block of L2.9: `N = 2`, `R = 2`, `FB = [(255,0,0),(0,0,1)]`, busy. -/
def rflAt (rp : Fin 48) (left : BitVec 8) (led : BitVec 16) (ht tc : Bool) : State :=
  { idle ex22 [⟨255, 0, 0⟩, ⟨0, 0, 1⟩] with
    active := true, rp := rp, resetLeft := left, ledIndex := led, pendHt := ht, pendTc := tc }

/-- Whether a step completes in a state with the given property. -/
def after (o : Host.Outcome State Fault Refusal) (p : State → Bool) : Bool :=
  match o with
  | .next t => p t
  | .fault _ => false
  | .refused _ => false

theorem after_iff {o : Host.Outcome State Fault Refusal} {p : State → Bool} :
    after o p = true ↔ ∃ t, o = .next t ∧ p t = true := by cases o <;> simp [after]

/-- The last response, as (CODE, DATA). -/
def lastResponse (t : State) : Option (RespCode × BitVec 32) := t.responses.getLast?.map fun r => (r.code, r.data)

/-! ### WellFormed: an ill-formed term for each check (R62) -/

theorem test_wf_refuses_illegal_transmit : Instr.wf (.illegal 0x1000000000000000#64) = false := by decide
theorem test_wf_refuses_illegal_wrpix : Instr.wf (.illegal 0x2000000002FF0000#64) = false := by decide
theorem test_wf_refuses_illegal_rdpix : Instr.wf (.illegal 0x3000000005000000#64) = false := by decide
theorem test_wf_refuses_illegal_rdstat : Instr.wf (.illegal 0x4000000000000000#64) = false := by decide
theorem test_wf_accepts_illegal_words :
    [0x0000000000000000#64, 0x5000000000000000#64, 0xF000000000000000#64, 0x1000010000000000#64, 0x2800000000000000#64,
      0x30000000050000FF#64, 0x4000000100000000#64].all (fun w => Instr.wf (.illegal w)) = true := by decide

/-- The configuration check refuses N = 0, N = 65535, two bad code pairs and R = 256 (R5, R9, R10). -/
theorem test_config_refusals :
    (exParams 0 1).wf = false ∧ (exParams 65535 1).wf = false ∧ (exParams 65534 255).wf = true ∧
    { exParams 2 1 with CODE0 := 0xF8, CODE1 := 0xC0 }.wf = false ∧
    { exParams 2 1 with CODE0 := 0x81 }.wf = false ∧ { exParams 2 1 with CODE1 := 0xFF }.wf = false ∧
    (exParams 2 256).wf = false := by decide

/-- G1's windows in units of 1.25 ns, with the given latch threshold. -/
def g1Timing (latch : Nat) : Timing :=
  { tSub := 125, tLatch := latch, t0hMin := 200, t0hMax := 440, t0lMin := 560, t0lMax := 800
    t1hMin := 520, t1hMax := 760, t1lMin := 240, t1lMax := 480 }

/-- EX with `R = 1` (a reset of 90 us) meets G1's windows and a latch threshold of 50 us, and R165's check accepts it. -/
theorem test_conforming_build_accepts :
    Config.buildConforming { exParams 2 1 with timing := g1Timing 40000 }
      = .ok { toParams := { exParams 2 1 with timing := g1Timing 40000 }, ok := by decide } :=
  Config.buildConforming_eq_ok.mpr ⟨Config.build_eq_ok.mpr rfl, by decide⟩

/-- Against a threshold of 280 us the same block is built by R16 and refused by R165 item 1. -/
theorem test_conforming_build_refuses_short_reset :
    Config.buildConforming { exParams 2 1 with timing := g1Timing 224000 } = .error .badTiming :=
  Config.buildConforming_eq_badTiming.mpr
    ⟨⟨{ toParams := { exParams 2 1 with timing := g1Timing 224000 }, ok := by decide }, Config.build_eq_ok.mpr rfl⟩,
      by decide⟩

/-- G1's figures, in units of 1.25 ns (T_SUB = 156.25 ns = 125): the smallest legal R is 0 for 50 us and 8 for 280 us. -/
theorem test_min_reset_refills :
    Timing.minResetRefills { (default : Timing) with tSub := 125, tLatch := 40000 } = 0 ∧
    Timing.minResetRefills { (default : Timing) with tSub := 125, tLatch := 224000 } = 8 := by decide

/-! ### Decoding: words written out from R60 to R62 and R65 (L2.1) -/

theorem test_decode_transmit : decodeTableWord 64 0x1000000000000000 = some .transmit := by decide
theorem test_decode_wrpix : decodeTableWord 64 0x2000000002FF0000 = some (.wrpix 2 ⟨255, 0, 0⟩) := by decide
theorem test_decode_wrpix_max :
    decodeTableWord 64 0x200000FFFFFFFFFF = some (.wrpix 65535 ⟨255, 255, 255⟩) := by decide
theorem test_decode_wrpix_rsv : decodeTableWord 64 0x20000FFFFFFFFFFF = some (.illegal 0x20000FFFFFFFFFFF#64) := by
  decide
theorem test_decode_rdpix : decodeTableWord 64 0x3000000005000000 = some (.rdpix 5) := by decide
theorem test_decode_rdpix_blue : decodeTableWord 64 0x3000000005000001 = some (.illegal 0x3000000005000001#64) := by
  decide
theorem test_decode_rdstat : decodeTableWord 64 0x4000000000000000 = some .rdstat := by decide
theorem test_decode_zero : decodeTableWord 64 0 = some (.illegal 0#64) := by decide
theorem test_decode_transmit_idx : decodeTableWord 64 0x1000000001000000 = some (.illegal 0x1000000001000000#64) := by
  decide
theorem test_decode_emit : decodeTableWord 8 0x1 = some .emit := by decide
theorem test_decode_refill_ht : decodeTableWord 8 0x2 = some .refillHt := by decide
theorem test_decode_refill_tc : decodeTableWord 8 0x3 = some .refillTc := by decide
theorem test_decode_reset : decodeTableWord 8 0x4 = some .reset := by decide
theorem test_decode_no_action : decodeTableWord 8 0x0 = none ∧ decodeTableWord 8 0x5 = none := by decide
theorem test_encode_wrpix :
    encode (.wrpix 0 ⟨0xAB, 0xCD, 0xEF⟩) = .command 0x2000000000ABCDEF#64 := by decide

/-! ### HOST commands (L2.3 to L2.7) -/

/-- T1. -/
theorem test_transmit_idle : after (exec .transmit idle2) (fun t =>
    t.status == 0x00000003 && t.resetLeft == 1 && t.rp == 0 && t.wire == [.start] && t.responses == [⟨.ok, 0⟩])
    = true := by decide
/-- T4. -/
theorem test_transmit_busy : after (exec .transmit busy2) (fun t =>
    t.status == 0x00000103 && t.wire == [] && t.responses == [⟨.errBusy, 0⟩]) = true := by decide
/-- W1. -/
theorem test_wrpix_idle : after (exec (.wrpix 0 ⟨0xAB, 0xCD, 0xEF⟩) idle2) (fun t =>
    t.fb == [⟨0xAB, 0xCD, 0xEF⟩, ⟨4, 5, 6⟩] && t.status == 0 && t.responses == [⟨.ok, 0⟩]) = true := by decide
/-- W4 and W5: busy in range, then out of range. -/
theorem test_wrpix_busy :
    after (exec (.wrpix 1 ⟨9, 9, 9⟩) busy2) (fun t =>
      t.status == 0x00000203 && t.fb == [⟨1, 2, 3⟩, ⟨4, 5, 6⟩] && t.responses == [⟨.errBusy, 0⟩]) = true ∧
    after (exec (.wrpix 2 ⟨9, 9, 9⟩) busy2) (fun t => t.status == 0x00000003 && t.responses == [⟨.errBounds, 0⟩])
      = true := by decide
/-- R1 and R2. -/
theorem test_rdpix :
    after (exec (.rdpix 1) busy2) (fun t => t.responses == [⟨.ok, 0x00040506⟩] && t.status == 3) = true ∧
    after (exec (.rdpix 2) idle2) (fun t => t.responses == [⟨.errBounds, 0⟩]) = true := by decide
/-- L2.6: P4's state, HT pending with F_START_BUSY and F_ILLEGAL_CMD set. -/
theorem test_rdstat : after (exec .rdstat { busy2 with pendHt := true, fStartBusy := true, fIllegalCmd := true })
    (fun t => t.responses == [⟨.ok, 0x00000913⟩]) = true := by decide
/-- R86's example: LED_INDEX 4 and DONE. -/
theorem test_rdstat_done : after (exec .rdstat { idle2 with ledIndex := 4, done := true })
    (fun t => t.responses == [⟨.ok, 0x00040008⟩] && t.done) = true := by decide
/-- L2.7: busy, STATUS 0x13. -/
theorem test_illegal : after (exec (.illegal 0xFFFFFFFFFFFFFFFF#64) { busy2 with pendHt := true })
    (fun t => t.status == 0x00000813 && t.responses == [⟨.errIllegal, 0⟩]) = true := by decide
/-- R64: RDPIX's answer as a 64-bit word, and an ERR_ILLEGAL. -/
theorem test_response_word :
    (Response.word ⟨.ok, 0x00FF0000⟩ = 0x0000000000FF0000#64) ∧ Response.word ⟨.errIllegal, 0⟩ = 0xC000000000000000#64 := by
  decide

/-! ### Stream engine (L2.2, L2.8, L2.9) -/

/-- L2.2: (0x12,0x34,0x56). -/
theorem test_enc : (enc ex21 ⟨0x12, 0x34, 0x56⟩).toList =
    [0xC0, 0xC0, 0xF8, 0xF8, 0xC0, 0xF8, 0xC0, 0xC0, 0xC0, 0xC0, 0xC0, 0xF8, 0xC0, 0xC0, 0xF8, 0xC0,
     0xC0, 0xF8, 0xC0, 0xF8, 0xC0, 0xF8, 0xF8, 0xC0] := by decide
/-- R107: 0xC0 is high for two sub-bits. -/
theorem test_wave : unitWave 0xC0 = [true, true, false, false, false, false, false, false] := by decide
/-- E3 and E7. -/
theorem test_emit_events :
    after (exec .emit (serAt 23 false false)) (fun t => t.rp == 24 && t.status == 0x00000015) = true ∧
    after (exec .emit (serAt 47 false false)) (fun t => t.rp == 0 && t.status == 0x00000025) = true := by decide
/-- E4 and E9: underruns. -/
theorem test_emit_underrun :
    after (exec .emit (serAt 23 false true)) (fun t => t.rp == 24 && t.status == 0x00000435) = true ∧
    after (exec .emit (serAt 47 false true)) (fun t => t.rp == 0 && t.status == 0x00000425) = true := by decide
/-- F7. -/
theorem test_refill_ht_encode : after (exec .refillHt (rflAt 24 0 1 true false)) (fun t =>
    t.buf.first.toList == List.replicate 23 0xC0 ++ [0xF8] && t.ledIndex == 2 && t.pendHt == false) = true := by decide
/-- F3, then F1. -/
theorem test_refill_ht_zero :
    after (exec .refillHt (rflAt 24 0 2 true false)) (fun t =>
      t.buf.first == zeroHalf && t.status == 0x00030005) = true ∧
    after (exec .refillHt (rflAt 24 2 0 true false)) (fun t =>
      t.buf.first == zeroHalf && t.resetLeft == 1 && t.status == 0x00000003) = true := by decide
/-- F2. -/
theorem test_refill_tc_encode : after (exec .refillTc (rflAt 0 0 0 false true)) (fun t =>
    t.buf.second.toList == List.replicate 8 0xC0 ++ List.replicate 8 0xF8 ++ List.replicate 8 0xC0 &&
    t.status == 0x00010005) = true := by decide
/-- F4. -/
theorem test_refill_tc_stop : after (exec .refillTc (rflAt 5 0 3 false true)) (fun t =>
    t.rp == 5 && t.status == 0x00030008 && t.irqDone) = true := by decide
/-- L2.11, second row. -/
theorem test_reset : after (exec .reset { busy2 with pendHt := true, fIllegalCmd := true, rp := 30 }) (fun t =>
    t.status == 0 && t.wire == [.reset] && t.rp == 0) = true := by decide
/-- The step takes the agenda's word: an EMIT label while busy; and a label that names no action is refused. -/
theorem test_step : after (step (busy2.withFetchWord 8 1)) (fun t => t.rp == 1 && t.wire == [.unit 0]) = true ∧
    step (busy2.withFetchWord 8 0) = .refused (.noAction 0) := ⟨by decide, rfl⟩
/-- A RESET label runs as the first step after power-on. -/
theorem test_step_from_reset : after (step (State.reset.withFetchWord 8 4)) (fun t => t.wire == [.reset]) = true := rfl

/-! ### Scripts (R70, R71) -/

/-- P1's first line, with a label, a comment and a hexadecimal number. -/
theorem test_read_line :
    (readLine ['w', ':', ' ', 'W', 'R', 'P', 'I', 'X', ' ', '0', ',', '0', 'x', 'F', 'f', ',', ' ', '0', ',', '0', ';', 'c']
      ).toOption = some ⟨some ['w'], some (.wrpix 0 255 0 0)⟩ := by decide
theorem test_assemble :
    (assemble 2 (.wrpixc 1 0xFFFFFF)).toOption = some [.send (.command 0x2000000001FFFFFF#64)] ∧
    (assemble 2 (.fill 0 0 1)).toOption
      = some [.send (.command 0x2000000000000001#64), .send (.command 0x2000000001000001#64)] ∧
    (assemble 2 .showFrame).toOption = some [.send (.command 0x1000000000000000#64), .pollIdle] ∧
    (assemble 2 (.rdpix 65536)).toOption = none := by decide

/-! ### Witnesses: for each statement with hypotheses, values that meet all of them -/

/-- An idle block of `N = 1`, `R = 0`. -/
def idle1 : State := idle ex10 [⟨0, 0, 0⟩]

/-- The eager schedule of `N = 1`, `R = 0` between its TRANSMIT and its STOP (L2.10, first row: 72 EMITs, 3 refills). -/
def eagerBody : List Instr :=
  List.replicate 24 .emit ++ [.refillHt] ++ List.replicate 24 .emit ++ [.refillTc] ++ List.replicate 24 .emit

theorem witness_DecodeOfEncodeIsIdentity :
    Instr.wf (.wrpix 65535 ⟨255, 255, 255⟩) = true ∧ Instr.wf (.illegal 0#64) = true := by decide
theorem witness_EncodeOfDecodeIsIdentity :
    decode (.command 0x3000000005000000#64) = .ok (.rdpix 5) ∧ decode (.label 3) = .ok .refillTc := ⟨rfl, rfl⟩
theorem witness_ReservedWordsAreIllegal :
    decodeCommand 0x0#64 = .illegal 0x0#64 ∧ decodeCommand 0x5000000000000000#64 = .illegal 0x5000000000000000#64 ∧
    decodeCommand 0x20000FFFFFFFFFFF#64 = .illegal 0x20000FFFFFFFFFFF#64 := by decide
theorem witness_LabelsNameTheirActions : ((0x0 : Label) = 0x0#4 ∨ 0x5#4 ≤ (0x0 : Label)) ∧ 0x5#4 ≤ (0x5 : Label) ∧
    0x5#4 ≤ (0xF : Label) := by decide
theorem witness_MinimalResetRefillsMeetTheLatch :
    0 < ({ (default : Timing) with tSub := 1 }).tSub := by decide
theorem witness_OutputsAndPhaseFollowTheState : idle2.active = false := rfl
theorem witness_TransmitFollowsItsRule : idle2.active = false ∧ busy2.active = true := ⟨rfl, rfl⟩
/-- The last index, the first index past the end, and the largest index. -/
theorem witness_WrpixFollowsItsRule :
    (busy2.cfg.N ≤ (2#16).toNat ∧ busy2.cfg.N ≤ (65535#16).toNat) ∧
    ((1#16).toNat < busy2.cfg.N ∧ busy2.active = true) ∧
    (Memory.wf idle2.cfg.N idle2.fb = true ∧ (1#16).toNat < idle2.cfg.N ∧ idle2.active = false) := by decide
theorem witness_RdpixFollowsItsRule : busy2.cfg.N ≤ (2#16).toNat ∧ (1#16).toNat < busy2.cfg.N := by decide
theorem witness_WrittenPixelReadsBack :
    Memory.wf idle2.cfg.N idle2.fb = true ∧ idle2.active = false ∧ (1#16).toNat < idle2.cfg.N ∧
    (0#16).toNat < idle2.cfg.N := by decide
theorem witness_CommandsButTransmitAreIdempotent : decodeCommand 0x2000000001090909#64 ≠ .transmit := by decide
theorem witness_HostCannotWriteTheStream :
    decodeCommand 0x2000000001090909#64 ≠ .transmit ∧
    ∃ t, exec (decodeCommand 0x2000000001090909#64) busy2 = .next t := ⟨by decide, _, rfl⟩
theorem witness_EmitFollowsItsRule :
    ((serAt 47 true true).active = true ∧ (serAt 23 false false).active = true) ∧ idle2.active = false := by decide
/-- Each branch that goes on, at its boundary, for each half. -/
theorem witness_RefillRewritesItsHalf :
    (∀ k : Half, (rflAt 24 1 0 true true).active = true ∧ (rflAt 24 1 0 true true).pending k = true ∧
      0 < (rflAt 24 1 0 true true).resetLeft.toNat) ∧
    (∀ k : Half, (rflAt 24 0 1 true true).pending k = true ∧ (rflAt 24 0 1 true true).resetLeft.toNat = 0 ∧
      (rflAt 24 0 1 true true).ledIndex.toNat < (rflAt 24 0 1 true true).cfg.N) ∧
    (∀ k : Half, (rflAt 24 0 2 true true).pending k = true ∧ (rflAt 24 0 2 true true).resetLeft.toNat = 0 ∧
      (rflAt 24 0 2 true true).ledIndex.toNat = (rflAt 24 0 2 true true).cfg.N) := by
  refine ⟨fun k => ?_, fun k => ?_, fun k => ?_⟩ <;> cases k <;> decide
theorem witness_StopEndsTheTransmission : ∀ k : Half,
    (rflAt 5 0 3 true true).active = true ∧ (rflAt 5 0 3 true true).pending k = true ∧
    (rflAt 5 0 3 true true).resetLeft.toNat = 0 ∧
    (rflAt 5 0 3 true true).cfg.N < (rflAt 5 0 3 true true).ledIndex.toNat := by
  intro k; cases k <;> decide
theorem witness_RefillNeedsItsEvent :
    ¬((serAt 0 false false).active = true ∧ (serAt 0 false false).pendHt = true) ∧
    ¬(idle2.active = true ∧ idle2.pendTc = true) ∧
    ((serAt 24 true false).active = true ∧ (serAt 24 true false).pendHt = true) := by decide
theorem idle2_inv : idle2.Inv := by
  refine ⟨?_, fun _ => ?_⟩ <;> constructor <;> decide
theorem witness_EitherPendingEventMayBeServiced :
    ((serAt 5 true true).active = true ∧ (serAt 5 true true).pendHt = true ∧ (serAt 5 true true).pendTc = true) ∧
    (idle2.Inv ∧ idle2.noFault = true) := ⟨by decide, idle2_inv, by decide⟩
/-- Both events, at the waits 0, 23 and 24. -/
theorem witness_RefillDeadlineIsTwentyThreeUnits :
    ((serAt 24 true false).active = true ∧ (serAt 24 true false).fUnderrun = false ∧
      (serAt 24 true false).rp.val = 24 ∧ (serAt 24 true false).pendHt = true ∧ (serAt 24 true false).pendTc = false) ∧
    ((serAt 0 false true).active = true ∧ (serAt 0 false true).fUnderrun = false ∧
      (serAt 0 false true).rp.val = 0 ∧ (serAt 0 false true).pendTc = true ∧ (serAt 0 false true).pendHt = false) ∧
    0 ≤ 24 ∧ 23 ≤ 24 ∧ 24 ≤ 24 := by decide
/-- L2.10: 23 EMITs after the event no underrun, at the 24th one. -/
theorem test_deadline :
    after (execAll (List.replicate 23 .emit) (serAt 24 true false)) (fun t => t.rp == 47 && !t.fUnderrun) = true ∧
    after (execAll (List.replicate 24 .emit) (serAt 24 true false)) (fun t => t.rp == 0 && t.fUnderrun) = true := by
  decide
theorem witness_PhaseTransitionsFollowTheTable : ∃ t, exec .refillHt (rflAt 24 1 0 true false) = .next t := ⟨_, rfl⟩
theorem witness_ActiveIsWrittenOnlyByStartStopReset :
    (∃ t, exec .transmit idle2 = .next t ∧ idle2.active = false ∧ t.active = true) ∧
    (∃ t, exec .refillTc (rflAt 5 0 3 false true) = .next t ∧ (rflAt 5 0 3 false true).active = true ∧
      t.active = false) := ⟨⟨_, rfl, rfl, rfl⟩, ⟨_, rfl, rfl, rfl⟩⟩
theorem witness_CountersMoveOnlyAsStated : idle2.Inv ∧ ∃ t, exec .transmit idle2 = .next t := ⟨idle2_inv, _, rfl⟩
theorem witness_ReadPositionMovesOnlyAsStated : ∃ t, exec .emit (serAt 47 false false) = .next t := ⟨_, rfl⟩
theorem witness_PendingFlagsChangeOnlyAsStated : ∃ t, exec .refillTc (rflAt 5 0 3 true true) = .next t := ⟨_, rfl⟩
theorem witness_DoneChangesOnlyAsStated : ∃ t, exec .refillTc (rflAt 5 0 3 false true) = .next t := ⟨_, rfl⟩
theorem witness_FaultBitsAreSticky :
    ∃ t, exec .transmit { busy2 with fUnderrun := true } = .next t ∧ Instr.transmit ≠ .reset ∧
      { busy2 with fUnderrun := true }.hasFault .underrun = true := ⟨_, rfl, by decide, rfl⟩
theorem witness_EachFaultHasItsOneCause : ∃ t, exec .transmit busy2 = .next t ∧ busy2.hasFault .startBusy = false :=
  ⟨_, rfl, rfl⟩
theorem witness_FrameBufferIsWrittenOnlyByWrpixAndReset :
    ∃ t, exec (.wrpix 1 ⟨9, 9, 9⟩) idle2 = .next t ∧ Instr.wrpix 1 ⟨9, 9, 9⟩ ≠ .reset := ⟨_, rfl, by decide⟩
theorem witness_DoubleBufferIsWrittenOnlyAsStated :
    (∃ t, exec .transmit busy2 = .next t ∧ busy2.active = true) ∧ ∃ t, exec .refillHt (rflAt 24 1 0 true false) = .next t :=
  ⟨⟨_, rfl, rfl⟩, _, rfl⟩
theorem witness_WireRecordsExactlyTheOutput : ∃ t, exec .emit busy2 = .next t := ⟨_, rfl⟩
theorem witness_ConfigurationNeverChanges : ∃ t, step (busy2.withFetchWord 8 4) = .next t := ⟨_, rfl⟩
theorem witness_InstructionsLeaveTheModelsOwnFields : ∃ t, exec .emit busy2 = .next t := ⟨_, rfl⟩
theorem witness_DrawnPixelHoldsUntilWritten :
    ∃ t u, exec .reset busy2 = .next t ∧ execAll [.rdpix 0, .wrpix 1 ⟨9, 9, 9⟩] t = .next u ∧
      Instr.reset ∉ [Instr.rdpix 0, .wrpix 1 ⟨9, 9, 9⟩] ∧
      ∀ idx p, Instr.wrpix idx p ∈ [Instr.rdpix 0, .wrpix 1 ⟨9, 9, 9⟩] → idx.toNat ≠ 0 := by
  refine ⟨_, _, rfl, rfl, by decide, fun idx p h => ?_⟩
  simp only [List.mem_cons, List.not_mem_nil, or_false, Instr.wrpix.injEq] at h
  rcases h with h | ⟨rfl, _⟩
  · cases h
  · decide
theorem witness_StepRunsTheDecodedInput :
    (busy2.withFetchWord 8 1).agenda = [.label 1] ∧ decode (.label 1) = .ok .emit ∧
    decode (.label 0) = .error (.noAction 0) := ⟨rfl, rfl, rfl⟩
theorem witness_OwnTurnsRunOnlyTheBlocksActions : idle2.agenda = [] ∧ idle2.active = false ∧ busy2.agenda = [] :=
  ⟨rfl, rfl, rfl⟩
theorem witness_EveryStepKeepsTheInvariant :
    (idle2.pushInput (.command 0x1000000000000000#64)).Inv ∧
    ∃ t, step (idle2.pushInput (.command 0x1000000000000000#64)) = .next t := by
  refine ⟨⟨?_, fun _ => ?_⟩, _, rfl⟩ <;> constructor <;> decide
theorem witness_ReachableFaultFreeStatesMeetTheInvariants :
    ∃ s, execAll [.transmit, .emit] (State.powerOn ex21) = .next s ∧ s.noFault = true := ⟨_, rfl, rfl⟩
theorem witness_SetFaultBitsChangeNoEffect : ∃ t, exec .transmit busy2 = .next t ∧ Instr.transmit ≠ .rdstat :=
  ⟨_, rfl, by decide⟩
theorem witness_OnlyTheThreeUnitsAreEverSent :
    (busy2.withFetchWord 8 1).LegalUnits ∧ ∃ t, step (busy2.withFetchWord 8 1) = .next t := by
  refine ⟨⟨by decide, fun u h => ?_⟩, _, rfl⟩
  cases h

/-- A fault-free transmission: the premise of R53, R110 and R111 is met. -/
theorem faultFreeTransmission_exists :
    ∃ u t, FaultFreeTransmission idle1 eagerBody u .refillHt t := by
  have run : after (execAll (.transmit :: eagerBody) idle1) (fun u =>
      u.active && after (exec .refillHt u) (fun t => !t.active && t.noFault)) = true := by decide
  obtain ⟨u, hu, h⟩ := after_iff.1 run
  obtain ⟨ha, h⟩ := Bool.and_eq_true_iff.1 h
  obtain ⟨t, ht, h⟩ := after_iff.1 h
  obtain ⟨hi, hn⟩ := Bool.and_eq_true_iff.1 h
  exact ⟨u, t, ⟨rfl, by decide, hu, by decide, by decide, ha, ht, by simpa using hi, hn⟩⟩
theorem witness_FrameIsCapturedAtTransmit : ∃ u t, FaultFreeTransmission idle1 eagerBody u .refillHt t :=
  faultFreeTransmission_exists
theorem witness_StreamContract : ∃ u t, FaultFreeTransmission idle1 eagerBody u .refillHt t :=
  faultFreeTransmission_exists
theorem witness_TransmissionCounts : ∃ u t, FaultFreeTransmission idle1 eagerBody u .refillHt t :=
  faultFreeTransmission_exists
theorem witness_EveryTransmissionCanFinish :
    idle2.active = false ∧ idle2.noFault = true ∧ Memory.wf idle2.cfg.N idle2.fb = true ∧ 0 ≤ 23 ∧ 23 ≤ 23 := by
  decide

end Sys2Proof.Tests
end

section
/-! SUPPORT. Scope: the configuration (R5, R9, R10, R16), the pulse of a code on the line (R107), the turns of the
agents (R12, R151), and the fields of the model's own. -/

namespace Sys2Proof

/-! ### Codes as pulses (R9, R14) -/

/-- Read most significant bit first, `pulse k` is high in exactly its first `k` sub-bits. -/
theorem pulse_getLsbD {k : Nat} (hk : k ≤ 8) (i : Fin 8) :
    (pulse k).getLsbD (7 - i.val) = decide (i.val < k) := by
  rw [Bool.eq_iff_iff]
  simp only [pulse, BitVec.getLsbD_shiftLeft, BitVec.getLsbD_allOnes, Bool.and_eq_true, Bool.not_eq_true',
    decide_eq_true_eq, decide_eq_false_iff_not]
  omega

/-- The bits of R9's form determine the unit. -/
theorem eq_pulse_iff {u : TxUnit} {k : Nat} (hk : k ≤ 8) :
    u = pulse k ↔ ∀ i : Fin 8, u.getLsbD (7 - i.val) = decide (i.val < k) := by
  constructor
  · rintro rfl i
    exact pulse_getLsbD hk i
  · intro h
    refine BitVec.eq_of_getLsbD_eq fun j hj => ?_
    have hbit := (h ⟨7 - j, by omega⟩).trans (pulse_getLsbD hk ⟨7 - j, by omega⟩).symm
    have hj' : 7 - (7 - j) = j := by omega
    simpa only [hj'] using hbit

/-- The zero unit is the pulse of length 0. -/
theorem z0_eq_pulse : z0 = pulse 0 := by decide

/-! ### What a well-formed configuration is -/

/-- R9: two pulses, the shorter one for a protocol 0 bit. -/
theorem Params.codesOk_iff (p : Params) :
    p.codesOk = true ↔
      ∃ k0 k1 : Nat, 1 ≤ k0 ∧ k0 < k1 ∧ k1 ≤ 7 ∧ p.CODE0 = pulse k0 ∧ p.CODE1 = pulse k1 := by
  simp only [Params.codesOk, List.any_eq_true, List.mem_range, Bool.and_eq_true, decide_eq_true_eq, beq_iff_eq]
  constructor
  · rintro ⟨k0, -, k1, -, ⟨⟨h0, h01, h1⟩, hc0⟩, hc1⟩
    exact ⟨k0, k1, h0, h01, h1, hc0, hc1⟩
  · rintro ⟨k0, k1, h0, h01, h1, hc0, hc1⟩
    exact ⟨k0, by omega, k1, by omega, ⟨⟨h0, h01, h1⟩, hc0⟩, hc1⟩

/-- R5, R9 and R10 together. -/
theorem Params.wf_iff (p : Params) :
    p.wf = true ↔ (1 ≤ p.N ∧ p.N ≤ 65534) ∧ p.R ≤ 255 ∧
      ∃ k0 k1 : Nat, 1 ≤ k0 ∧ k0 < k1 ∧ k1 ≤ 7 ∧ p.CODE0 = pulse k0 ∧ p.CODE1 = pulse k1 := by
  simp only [Params.wf, Bool.and_eq_true, Params.codesOk_iff, Params.lengthOk, Params.resetRefillsOk,
    decide_eq_true_eq]
  rw [and_right_comm, and_assoc]

/-- R16: the builder gives out the block exactly for well-formed parameters. -/
theorem Config.build_accepts_iff (p : Params) :
    (∃ c : Config, Config.build p = .ok c ∧ c.toParams = p) ↔ p.wf = true := by
  constructor
  · rintro ⟨c, -, rfl⟩
    exact c.ok
  · intro h
    exact ⟨⟨p, h⟩, Config.build_eq_ok.2 rfl, rfl⟩

/-- Settles O12: `Config.build` accepts the well-formed parameters, and R9's two pulses are read bit by bit. -/
theorem builderRefusesExactlyBadParameters : Obligations.BuilderRefusesExactlyBadParameters := by
  intro p
  rw [Config.build_accepts_iff, Params.wf_iff]
  refine and_congr_right fun _ => and_congr_right fun _ => exists_congr fun k0 => exists_congr fun k1 =>
    and_congr_right fun _ => and_congr_right fun h01 => and_congr_right fun h1 => ?_
  rw [forall_and, ← eq_pulse_iff (by omega), ← eq_pulse_iff (by omega)]

end Sys2Proof

namespace Sys2Proof.Machine

/-! ### The line (R107) -/

/-- On the line a pulse is `k` sub-bits high, then `8-k` low. -/
theorem unitWave_pulse {k : Nat} (hk : k ≤ 8) :
    unitWave (pulse k) = List.replicate k true ++ List.replicate (8 - k) false := by
  refine List.ext_getElem (by simp [unitWave, hk]) fun i hi _ => ?_
  have hi' : i < 8 := by simpa [unitWave] using hi
  have hbit := pulse_getLsbD hk ⟨i, hi'⟩
  by_cases h : i < k <;> simpa [unitWave, unitLevel, List.getElem_append, h] using hbit

/-- Settles O11: both codes of a configuration are pulses, and so is `Z0`, of length 0. -/
theorem lineWaveform : Obligations.LineWaveform := by
  intro c
  obtain ⟨-, -, k0, k1, h0, h01, h1, hc0, hc1⟩ := c.toParams.wf_iff.1 c.ok
  refine ⟨k0, k1, h0, h01, h1, ?_, ?_, ?_, fun s i => rfl⟩
  · rw [hc0, unitWave_pulse (by omega)]
  · rw [hc1, unitWave_pulse (by omega)]
  · rw [z0_eq_pulse, unitWave_pulse (by omega)]; rfl

/-! ### When a refill has a step (R104, R108, R109) -/

/-- Some step of a refill exists exactly while its event is pending in a running transmission. -/
theorem exec_refill_completes_iff (s : State) (k : Half) :
    (∃ t, exec (refillInstr k) s = .next t) ↔ s.active = true ∧ s.pending k = true := by
  simp only [exec_refill_next_iff, exists_and_left, exists_eq, and_true]

theorem exec_refillHt_disabled {s : State} (h : ¬(s.active = true ∧ s.pendHt = true)) :
    exec .refillHt s = .fault .refillHtDisabled := by
  simp [exec, execRefillHt, State.enabled, h]

theorem exec_refillTc_disabled {s : State} (h : ¬(s.active = true ∧ s.pendTc = true)) :
    exec .refillTc s = .fault .refillTcDisabled := by
  simp [exec, execRefillTc, State.enabled, h]

/-- Settles O30: each refill completes exactly if its `require` holds, and is stuck by name otherwise. -/
theorem refillNeedsItsEvent : Obligations.RefillNeedsItsEvent := fun s =>
  ⟨exec_refill_completes_iff s .first, exec_refill_completes_iff s .second, exec_refillHt_disabled,
    exec_refillTc_disabled⟩

/-! ### The model's own fields -/

/-- EMIT leaves the agenda, the turn counter, the RESET's number and the responses. -/
@[simp] theorem State.sendUnit_ownFields (s : State) :
    s.sendUnit.agenda = s.agenda ∧ s.sendUnit.turns = s.turns ∧ s.sendUnit.epoch = s.epoch ∧
      s.sendUnit.responses = s.responses := by
  simp [State.sendUnit_eq]

/-- A refill leaves them in each of its four branches. -/
@[simp] theorem State.refill_ownFields (s : State) (k : Half) :
    (s.refill k).agenda = s.agenda ∧ (s.refill k).turns = s.turns ∧ (s.refill k).epoch = s.epoch ∧
      (s.refill k).responses = s.responses := by
  obtain ⟨-, h⟩ | ⟨-, -, h⟩ | ⟨-, -, h⟩ | ⟨-, -, h⟩ := s.refill_cases k <;> simp [h]

/-- Settles O45: HOST's commands only append a response, SER and RFL leave all four fields, and RESET counts `epoch`. -/
theorem instructionsLeaveTheModelsOwnFields : Obligations.InstructionsLeaveTheModelsOwnFields := by
  intro i s t h
  obtain ⟨rfl, -, rfl⟩ | ⟨rfl, -, rfl⟩ | ⟨idx, p, rfl, -, rfl⟩ | ⟨idx, p, rfl, -, -, rfl⟩ |
    ⟨idx, p, rfl, -, -, rfl⟩ | ⟨idx, rfl, -, rfl⟩ | ⟨idx, rfl, -, rfl⟩ | ⟨rfl, rfl⟩ | ⟨w, rfl, rfl⟩ |
    ⟨rfl, -, rfl⟩ | ⟨k, rfl, -, -, rfl⟩ | ⟨rfl, rfl⟩ := exec_next_cases h <;> simp

/-! ### Which step is next (R12, R52; log entry 3) -/

theorem State.dropInput_eq {s : State} {x : Input} {rest : List Input} (h : s.agenda = x :: rest) :
    s.dropInput = { s with agenda := rest } := by
  simp [State.dropInput, h]

/-- A next input that selects an instruction is taken off the agenda and run. -/
theorem step_of_decode_ok {s : State} {x : Input} {rest : List Input} {i : Instr} (h : s.agenda = x :: rest)
    (hd : decode x = .ok i) : step s = exec i s.dropInput := by
  simp [step, State.fetch, h, hd]

/-- A next input that names no action has no meaning (R65). -/
theorem step_of_decode_noAction {s : State} {x : Input} {rest : List Input} {ev : Label} (h : s.agenda = x :: rest)
    (hd : decode x = .error (.noAction ev)) : step s = .refused (.noAction ev) := by
  simp [step, State.fetch, h, hd]

/-- Settles O50: one lemma per answer of the decoder. -/
theorem stepRunsTheDecodedInput : Obligations.StepRunsTheDecodedInput := by
  intro s x rest h
  refine ⟨fun i hd => ?_, fun ev hd => step_of_decode_noAction h hd⟩
  rw [step_of_decode_ok h hd, State.dropInput_eq h]

/-- With nothing on the agenda, the agent whose turn it is acts if it can, and the turn is counted. -/
theorem step_of_agenda_nil {s : State} (h : s.agenda = []) :
    step s = if s.enabled (Config.freeTurn s.turns) then exec (ownInstr (Config.freeTurn s.turns)) s.countTurn
      else .next s.countTurn := by
  cases he : s.enabled (Config.freeTurn s.turns) <;> simp [step, State.fetch, h, he]

/-- While no transmission runs, no own action is enabled (R103, R108, R109). -/
theorem State.enabled_of_idle {s : State} (h : s.active = false) (a : OwnAction) : s.enabled a = false := by
  cases a <;> simp [State.enabled, h]

theorem State.enabled_countTurn (s : State) (a : OwnAction) : s.countTurn.enabled a = s.enabled a := by
  cases a <;> simp [State.enabled]

/-- An enabled own action completes. -/
theorem exec_ownInstr_completes {s : State} {a : OwnAction} (h : s.enabled a = true) :
    ∃ t, exec (ownInstr a) s = .next t := by
  cases a with
  | emit => exact ⟨s.sendUnit, exec_emit_next_iff.2 ⟨h, rfl⟩⟩
  | refillHt => exact (exec_refill_completes_iff s .first).2 (Bool.and_eq_true_iff.1 h)
  | refillTc => exact (exec_refill_completes_iff s .second).2 (Bool.and_eq_true_iff.1 h)

theorem ownInstr_cases (a : OwnAction) : ownInstr a = .emit ∨ ownInstr a = .refillHt ∨ ownInstr a = .refillTc := by
  cases a <;> simp [ownInstr]

/-- Settles O51: an idle block has no enabled action, and an enabled action of a running one completes. -/
theorem ownTurnsRunOnlyTheBlocksActions : Obligations.OwnTurnsRunOnlyTheBlocksActions := by
  refine ⟨fun s hag hidle => ?_, fun s hag => ?_⟩
  · rw [step_of_agenda_nil hag, if_neg (by simp [State.enabled_of_idle hidle])]
    rfl
  · rw [step_of_agenda_nil hag]
    split
    · next he =>
      obtain ⟨t, ht⟩ := exec_ownInstr_completes ((s.enabled_countTurn _).trans he)
      exact ⟨t, ht, .inr ⟨_, ownInstr_cases _, ht⟩⟩
    · exact ⟨s.countTurn, rfl, .inl rfl⟩

end Sys2Proof.Machine
end

section
/-! SUPPORT. State: what each operation does to the fault bits and the stream, the ways an instruction can complete, and
the statements of 10_state.md that follow from them: who writes what (R20 to R39), STATUS (R32), the invariant (R38). -/

namespace Sys2Proof.Machine

/-! ### The fault bits under each operation (R29, R131) -/

@[simp] theorem State.respond_hasFault (s : State) (c : RespCode) (d : BitVec 32) (f : FaultBit) :
    (s.respond c d).hasFault f = s.hasFault f := by cases f <;> rfl

@[simp] theorem State.record_hasFault (s : State) (r : Record) (f : FaultBit) :
    (s.record r).hasFault f = s.hasFault f := by cases f <;> rfl

@[simp] theorem State.writePixel_hasFault (s : State) (i : Nat) (p : Pixel) (f : FaultBit) :
    (s.writePixel i p).hasFault f = s.hasFault f := by cases f <;> rfl

@[simp] theorem State.startTransmission_hasFault (s : State) (f : FaultBit) :
    s.startTransmission.hasFault f = s.hasFault f := by cases f <;> rfl

@[simp] theorem State.dropInput_hasFault (s : State) (f : FaultBit) : s.dropInput.hasFault f = s.hasFault f := by
  cases f <;> rfl

@[simp] theorem State.countTurn_hasFault (s : State) (f : FaultBit) : s.countTurn.hasFault f = s.hasFault f := by
  cases f <;> rfl

@[simp] theorem State.clearAll_hasFault (s : State) (f : FaultBit) : s.clearAll.hasFault f = false := by
  cases f <;> rfl

/-- Raising a fault sets its bit and leaves the other three. -/
@[simp] theorem State.raise_hasFault (s : State) (g f : FaultBit) :
    (s.raise g).hasFault f = (s.hasFault f || g == f) := by
  cases f <;> simp [State.hasFault]

/-- EMIT can set the underrun bit only, when it ends a half while an event is pending (R103, R135). -/
@[simp] theorem State.sendUnit_hasFault (s : State) (f : FaultBit) :
    s.sendUnit.hasFault f = (s.hasFault f ||
      (f == .underrun && (decide (s.rp.val = 23 ∨ s.rp.val = 47) && (s.pendHt || s.pendTc)))) := by
  cases f <;> simp [State.sendUnit_eq, State.hasFault]

@[simp] theorem State.refill_hasFault (s : State) (k : Half) (f : FaultBit) :
    (s.refill k).hasFault f = s.hasFault f := by
  obtain ⟨-, h⟩ | ⟨-, -, h⟩ | ⟨-, -, h⟩ | ⟨-, -, h⟩ := s.refill_cases k <;> cases f <;> simp [h, State.hasFault]

/-- Where fault bits are only added, a state without one comes from a state without one. -/
theorem State.noFault_of_le {s t : State} (h : ∀ f, s.hasFault f = true → t.hasFault f = true)
    (ht : t.noFault = true) : s.noFault = true := by
  rw [State.noFault_iff] at ht ⊢
  intro f
  have hf := h f
  rw [ht f] at hf
  simpa using hf

/-! ### EMIT, field by field (R103) -/

@[simp] theorem State.sendUnit_cfg (s : State) : s.sendUnit.cfg = s.cfg := by simp [State.sendUnit_eq]

@[simp] theorem State.sendUnit_active (s : State) : s.sendUnit.active = s.active := by simp [State.sendUnit_eq]

@[simp] theorem State.sendUnit_ledIndex (s : State) : s.sendUnit.ledIndex = s.ledIndex := by simp [State.sendUnit_eq]

@[simp] theorem State.sendUnit_resetLeft (s : State) : s.sendUnit.resetLeft = s.resetLeft := by
  simp [State.sendUnit_eq]

@[simp] theorem State.sendUnit_buf (s : State) : s.sendUnit.buf = s.buf := by simp [State.sendUnit_eq]

@[simp] theorem State.sendUnit_rp (s : State) : s.sendUnit.rp = nextRp s.rp := by simp [State.sendUnit_eq]

@[simp] theorem State.sendUnit_pendHt (s : State) :
    s.sendUnit.pendHt = (s.pendHt || decide (s.rp.val = 23)) := by simp [State.sendUnit_eq]

@[simp] theorem State.sendUnit_pendTc (s : State) :
    s.sendUnit.pendTc = (s.pendTc || decide (s.rp.val = 47)) := by simp [State.sendUnit_eq]

@[simp] theorem State.sendUnit_done (s : State) : s.sendUnit.done = s.done := by simp [State.sendUnit_eq]

@[simp] theorem State.sendUnit_fb (s : State) : s.sendUnit.fb = s.fb := by simp [State.sendUnit_eq]

@[simp] theorem State.sendUnit_wire (s : State) : s.sendUnit.wire = s.wire ++ [.unit (s.buf.unit s.rp)] := by
  simp [State.sendUnit_eq]

/-! ### A refill, field by field (R104 to R106) -/

/-- What no branch of a refill writes. -/
@[simp] theorem State.refill_frame (s : State) (k : Half) :
    (s.refill k).cfg = s.cfg ∧ (s.refill k).rp = s.rp ∧ (s.refill k).fb = s.fb ∧ (s.refill k).wire = s.wire := by
  obtain ⟨-, h⟩ | ⟨-, -, h⟩ | ⟨-, -, h⟩ | ⟨-, -, h⟩ := s.refill_cases k <;> simp [h]

/-- A refill ends a running transmission exactly if nothing is left to send (R106). -/
theorem State.refill_active_eq_false_iff {s : State} (busy : s.active = true) (k : Half) :
    (s.refill k).active = false ↔ s.resetLeft.toNat = 0 ∧ s.cfg.N < s.ledIndex.toNat := by
  obtain ⟨h0, h⟩ | ⟨h0, h1, h⟩ | ⟨h0, h1, h⟩ | ⟨h0, h1, h⟩ := s.refill_cases k
  · simp [h, busy]; omega
  · simp [h, busy]; omega
  · simp [h, busy]; omega
  · simp [h, h0, h1]

/-- A refill clears its own event, and the other one too if it stops. -/
theorem State.refill_pendHt {s : State} (busy : s.active = true) (k : Half) :
    (s.refill k).pendHt = (s.pendHt && decide (k ≠ .first) && (s.refill k).active) := by
  obtain ⟨-, h⟩ | ⟨-, -, h⟩ | ⟨-, -, h⟩ | ⟨-, -, h⟩ := s.refill_cases k <;> cases k <;> simp [h, busy]

theorem State.refill_pendTc {s : State} (busy : s.active = true) (k : Half) :
    (s.refill k).pendTc = (s.pendTc && decide (k ≠ .second) && (s.refill k).active) := by
  obtain ⟨-, h⟩ | ⟨-, -, h⟩ | ⟨-, -, h⟩ | ⟨-, -, h⟩ := s.refill_cases k <;> cases k <;> simp [h, busy]

/-- A refill sets `done` exactly if it stops. -/
theorem State.refill_done {s : State} (busy : s.active = true) (k : Half) :
    (s.refill k).done = (s.done || !(s.refill k).active) := by
  obtain ⟨-, h⟩ | ⟨-, -, h⟩ | ⟨-, -, h⟩ | ⟨-, -, h⟩ := s.refill_cases k <;> simp [h, busy]

/-- A refill moves one counter by one, or stops and moves none (R23, R24); neither wraps (R112). -/
theorem State.refill_counters {s : State} (hled : s.ledIndex.toNat ≤ s.cfg.N + 1) (k : Half) :
    if 0 < s.resetLeft.toNat then
      (s.refill k).ledIndex = s.ledIndex ∧ (s.refill k).resetLeft.toNat + 1 = s.resetLeft.toNat
    else if s.ledIndex.toNat ≤ s.cfg.N then
      (s.refill k).ledIndex.toNat = s.ledIndex.toNat + 1 ∧ (s.refill k).resetLeft = s.resetLeft
    else (s.refill k).ledIndex.toNat = s.cfg.N + 1 ∧ (s.refill k).resetLeft = s.resetLeft := by
  obtain ⟨h0, h⟩ | ⟨h0, h1, h⟩ | ⟨h0, h1, h⟩ | ⟨h0, h1, h⟩ := s.refill_cases k
  · have hdown : (s.resetLeft - 1).toNat = s.resetLeft.toNat - 1 := resetLeft_pred_toNat h0
    rw [if_pos h0, h]
    exact ⟨by simp, by dsimp only; omega⟩
  · rw [if_neg (by omega), if_pos (by omega), h]
    exact ⟨ledIndex_succ_toNat (c := s.cfg) (by omega), by simp⟩
  · rw [if_neg (by omega), if_pos (by omega), h]
    exact ⟨(ledIndex_past_toNat s.cfg).trans (by omega), by simp⟩
  · rw [if_neg (by omega), if_neg (by omega), h]
    exact ⟨by simp only [State.stop_ledIndex]; omega, rfl⟩

/-- A refill of the first half leaves the second (R104). -/
@[simp] theorem State.refill_first_buf_second (s : State) : (s.refill .first).buf.second = s.buf.second := by
  obtain ⟨-, h⟩ | ⟨-, -, h⟩ | ⟨-, -, h⟩ | ⟨-, -, h⟩ := s.refill_cases .first <;> simp [h, Buf.writeHalf]

@[simp] theorem State.refill_second_buf_first (s : State) : (s.refill .second).buf.first = s.buf.first := by
  obtain ⟨-, h⟩ | ⟨-, -, h⟩ | ⟨-, -, h⟩ | ⟨-, -, h⟩ := s.refill_cases .second <;> simp [h, Buf.writeHalf]

/-! ### Steps that leave the stream alone -/

/-- What every HOST command but an accepted TRANSMIT keeps (R58): the configuration, the frame buffer's length and all
elements of R20 but the frame buffer's pixels and the fault bits, which are only added. -/
structure State.SameStream (s t : State) : Prop where
  cfg : t.cfg = s.cfg
  active : t.active = s.active
  ledIndex : t.ledIndex = s.ledIndex
  resetLeft : t.resetLeft = s.resetLeft
  buf : t.buf = s.buf
  rp : t.rp = s.rp
  pendHt : t.pendHt = s.pendHt
  pendTc : t.pendTc = s.pendTc
  done : t.done = s.done
  wire : t.wire = s.wire
  fbLength : t.fb.length = s.fb.length
  faults : ∀ f, s.hasFault f = true → t.hasFault f = true

theorem State.SameStream.trans {s t u : State} (h : s.SameStream t) (h' : t.SameStream u) : s.SameStream u where
  cfg := h'.cfg.trans h.cfg
  active := h'.active.trans h.active
  ledIndex := h'.ledIndex.trans h.ledIndex
  resetLeft := h'.resetLeft.trans h.resetLeft
  buf := h'.buf.trans h.buf
  rp := h'.rp.trans h.rp
  pendHt := h'.pendHt.trans h.pendHt
  pendTc := h'.pendTc.trans h.pendTc
  done := h'.done.trans h.done
  wire := h'.wire.trans h.wire
  fbLength := h'.fbLength.trans h.fbLength
  faults f hf := h'.faults f (h.faults f hf)

theorem State.sameStream_respond (s : State) (c : RespCode) (d : BitVec 32) : s.SameStream (s.respond c d) := by
  constructor <;> simp

theorem State.sameStream_raise (s : State) (f : FaultBit) : s.SameStream (s.raise f) := by
  constructor <;> simp +contextual

theorem State.sameStream_writePixel (s : State) (i : Nat) (p : Pixel) : s.SameStream (s.writePixel i p) := by
  constructor <;> simp

theorem State.sameStream_dropInput (s : State) : s.SameStream s.dropInput := by constructor <;> simp

theorem State.sameStream_countTurn (s : State) : s.SameStream s.countTurn := by constructor <;> simp

/-! ### The ways an instruction can complete -/

/-- The HOST commands other than TRANSMIT. -/
inductive PassiveCommand : Instr → Prop
  | wrpix (idx : BitVec 16) (p : Pixel) : PassiveCommand (.wrpix idx p)
  | rdpix (idx : BitVec 16) : PassiveCommand (.rdpix idx)
  | rdstat : PassiveCommand .rdstat
  | illegal (w : CommandWord) : PassiveCommand (.illegal w)

/-- A command word decodes to TRANSMIT or to a command that is passive (R65, R69). -/
theorem passiveCommand_decodeCommand {w : CommandWord} (h : decodeCommand w ≠ .transmit) :
    PassiveCommand (decodeCommand w) := by
  unfold decodeCommand at h ⊢
  dsimp only at h ⊢
  split
  · next ht => rw [if_pos ht] at h; exact absurd rfl h
  · split
    · exact .wrpix _ _
    · split
      · exact .rdpix _
      · split
        · exact .rdstat
        · exact .illegal _

/-- How an instruction completes, as far as the stream's state is concerned: the commands that leave it alone, and the
four steps that write it, each with the whole state it leaves. -/
inductive Completes (s : State) : Instr → State → Prop
  | passive {i : Instr} {t : State} (hi : PassiveCommand i) (same : s.SameStream t) : Completes s i t
  | refusedStart {t : State} (busy : s.active = true) (same : s.SameStream t) : Completes s .transmit t
  | start (idle : s.active = false) : Completes s .transmit ((s.startTransmission.record .start).respond .ok 0)
  | emit (busy : s.active = true) : Completes s .emit s.sendUnit
  | refill (k : Half) (busy : s.active = true) : Completes s (refillInstr k) (s.refill k)
  | reset : Completes s .reset (s.clearAll.record .reset)

theorem exec_completes {i : Instr} {s t : State} (h : exec i s = .next t) : Completes s i t := by
  obtain ⟨rfl, busy, rfl⟩ | ⟨rfl, idle, rfl⟩ | ⟨idx, p, rfl, -, rfl⟩ | ⟨idx, p, rfl, -, -, rfl⟩ |
    ⟨idx, p, rfl, -, -, rfl⟩ | ⟨idx, rfl, -, rfl⟩ | ⟨idx, rfl, -, rfl⟩ | ⟨rfl, rfl⟩ | ⟨w, rfl, rfl⟩ |
    ⟨rfl, busy, rfl⟩ | ⟨k, rfl, busy, -, rfl⟩ | ⟨rfl, rfl⟩ := exec_next_cases h
  · exact .refusedStart busy ((s.sameStream_raise _).trans (State.sameStream_respond ..))
  · exact .start idle
  · exact .passive (.wrpix ..) (s.sameStream_respond ..)
  · exact .passive (.wrpix ..) ((s.sameStream_raise _).trans (State.sameStream_respond ..))
  · exact .passive (.wrpix ..) ((s.sameStream_writePixel ..).trans (State.sameStream_respond ..))
  · exact .passive (.rdpix _) (s.sameStream_respond ..)
  · exact .passive (.rdpix _) (s.sameStream_respond ..)
  · exact .passive .rdstat (s.sameStream_respond ..)
  · exact .passive (.illegal w) ((s.sameStream_raise _).trans (State.sameStream_respond ..))
  · exact .emit busy
  · exact .refill k busy
  · exact .reset

/-- A passive command leaves the stream alone in every state (R58). -/
theorem exec_passive_sameStream {i : Instr} {s t : State} (hi : PassiveCommand i) (h : exec i s = .next t) :
    s.SameStream t := by
  cases exec_completes h with
  | passive _ same => exact same
  | refill k => cases k <;> nomatch hi
  | refusedStart | start | emit | reset => nomatch hi

/-- Only RESET clears a fault bit (R131). -/
theorem exec_keeps_faults {i : Instr} {s t : State} (h : exec i s = .next t) (hi : i ≠ .reset) (f : FaultBit)
    (hf : s.hasFault f = true) : t.hasFault f = true := by
  cases exec_completes h with
  | passive _ same => exact same.faults f hf
  | refusedStart _ same => exact same.faults f hf
  | start => simpa using hf
  | emit => simp [hf]
  | refill k => simpa using hf
  | reset => exact absurd rfl hi

/-- No instruction writes the configuration (R36). -/
theorem exec_cfg {i : Instr} {s t : State} (h : exec i s = .next t) : t.cfg = s.cfg := by
  cases exec_completes h with
  | passive _ same => exact same.cfg
  | refusedStart _ same => exact same.cfg
  | start | emit | refill | reset => simp

/-- Only WRPIX and RESET write the frame buffer (R30, R39). -/
theorem exec_fb {i : Instr} {s t : State} (h : exec i s = .next t) (hreset : i ≠ .reset)
    (hwrpix : ∀ idx p, i ≠ .wrpix idx p) : t.fb = s.fb := by
  cases i with
  | wrpix idx p => exact absurd rfl (hwrpix idx p)
  | reset => exact absurd rfl hreset
  | transmit =>
    cases ha : s.active
    · rw [exec_transmit_idle ha] at h; cases h; simp
    · rw [exec_transmit_busy ha] at h; cases h; simp
  | rdpix idx =>
    by_cases hb : idx.toNat < s.cfg.N
    · rw [exec_rdpix_ok hb] at h; cases h; simp
    · rw [exec_rdpix_bounds (by omega)] at h; cases h; simp
  | rdstat => rw [exec_rdstat] at h; cases h; simp
  | illegal w => rw [exec_illegal] at h; cases h; simp
  | emit => obtain ⟨-, rfl⟩ := exec_emit_next_iff.1 h; simp
  | refillHt => obtain ⟨-, rfl⟩ := (exec_refill_next_iff .first).1 h; simp
  | refillTc => obtain ⟨-, rfl⟩ := (exec_refill_next_iff .second).1 h; simp

/-- WRPIX leaves every pixel but the one it names (R48). -/
theorem exec_wrpix_pixel_other {idx : BitVec 16} {p : Pixel} {s t : State} (h : exec (.wrpix idx p) s = .next t)
    {n : Nat} (hn : n ≠ idx.toNat) : t.pixel n = s.pixel n := by
  by_cases hb : idx.toNat < s.cfg.N
  · cases ha : s.active
    · rw [exec_wrpix_idle hb ha] at h
      cases h
      exact (State.pixel_congr (by simp) (by simp) n).trans (s.pixel_writePixel_other hn p)
    · rw [exec_wrpix_busy hb ha] at h
      cases h
      exact State.pixel_congr (by simp) (by simp) n
  · rw [exec_wrpix_bounds (by omega)] at h
    cases h
    exact State.pixel_congr (by simp) (by simp) n

/-- A property that every instruction keeps holds after every schedule. -/
theorem execAll_keeps {P : State → Prop} (keeps : ∀ {i : Instr} {s t : State}, P s → exec i s = .next t → P t)
    {sched : List Instr} {s t : State} (hs : P s) (h : execAll sched s = .next t) : P t := by
  induction sched generalizing s with
  | nil => cases h; exact hs
  | cons i is ih =>
    obtain ⟨u, hu, h⟩ := execAll_cons_next_iff.1 h
    exact ih (keeps hs hu) h

/-! ### The invariant (R38) -/

theorem State.SameStream.kept {s t : State} (same : s.SameStream t) (hs : s.Kept) : t.Kept where
  frame := by rw [Memory.wf_iff, same.fbLength, same.cfg, ← Memory.wf_iff]; exact hs.frame
  resetLeft_le := by rw [same.resetLeft, same.cfg]; exact hs.resetLeft_le
  resetFirst := by rw [same.resetLeft, same.ledIndex]; exact hs.resetFirst
  ledIndex_le := by rw [same.ledIndex, same.cfg]; exact hs.ledIndex_le
  idleQuiet := by rw [same.active, same.pendHt, same.pendTc]; exact hs.idleQuiet
  doneIdle := by rw [same.done, same.active]; exact hs.doneIdle

/-- `Kept` with no LED encoded, no event pending and `done` 0: after an accepted TRANSMIT and after a RESET. -/
theorem State.kept_of_fresh {s : State} (frame : Memory.wf s.cfg.N s.fb = true) (left : s.resetLeft.toNat ≤ s.cfg.R)
    (led : s.ledIndex = 0) (ht : s.pendHt = false) (tc : s.pendTc = false) (done : s.done = false) : s.Kept where
  frame := frame
  resetLeft_le := left
  resetFirst _ := led
  ledIndex_le := by simp [led]
  idleQuiet _ := ⟨ht, tc⟩
  doneIdle h := by simp [done] at h

theorem State.kept_start {s : State} (hs : s.Kept) : ((s.startTransmission.record .start).respond .ok 0).Kept :=
  State.kept_of_fresh hs.frame (resetLeft_load_toNat s.cfg).le rfl rfl rfl rfl

theorem State.kept_reset (s : State) : (s.clearAll.record .reset).Kept :=
  State.kept_of_fresh (drawnFrame_wf ..) (Nat.zero_le _) rfl rfl rfl rfl

theorem State.kept_powerOn (c : Config) : (State.powerOn c).Kept :=
  State.kept_of_fresh (drawnFrame_wf ..) (Nat.zero_le _) rfl rfl rfl rfl

/-- EMIT writes nothing that a running transmission's `Kept` reads. -/
theorem State.kept_sendUnit {s : State} (hs : s.Kept) (busy : s.active = true) : s.sendUnit.Kept where
  frame := by simpa using hs.frame
  resetLeft_le := by simpa using hs.resetLeft_le
  resetFirst := by simpa using hs.resetFirst
  ledIndex_le := by simpa using hs.ledIndex_le
  idleQuiet h := by simp [busy] at h
  doneIdle := by simpa using hs.doneIdle

/-- A refill counts `reset_left` down before it counts `led_index` up, and neither leaves its range. -/
theorem State.Kept.refill_counters {s : State} (hs : s.Kept) (k : Half) :
    (s.refill k).resetLeft.toNat ≤ s.cfg.R ∧
    (0 < (s.refill k).resetLeft.toNat → (s.refill k).ledIndex = 0) ∧
    (s.refill k).ledIndex.toNat ≤ s.cfg.N + 1 := by
  have counters := State.refill_counters hs.ledIndex_le k
  have hle := hs.resetLeft_le
  split_ifs at counters with h0 h1 <;> obtain ⟨hled, hleft⟩ := counters
  · rw [hled]
    exact ⟨by omega, fun _ => hs.resetFirst h0, hs.ledIndex_le⟩
  · rw [hleft]
    exact ⟨hle, fun h => absurd h h0, by omega⟩
  · rw [hleft]
    exact ⟨hle, fun h => absurd h h0, by omega⟩

theorem State.kept_refill {s : State} (hs : s.Kept) (busy : s.active = true) (k : Half) : (s.refill k).Kept := by
  obtain ⟨hleft, hfirst, hled⟩ := hs.refill_counters k
  have not_done : s.done = false := Bool.eq_false_iff.2 fun h => by simp [hs.doneIdle h] at busy
  exact
    { frame := by simpa using hs.frame
      resetLeft_le := by simpa using hleft
      resetFirst := hfirst
      ledIndex_le := by simpa using hled
      idleQuiet := fun hstop => by simp [State.refill_pendHt busy, State.refill_pendTc busy, hstop]
      doneIdle := fun hdone => by simpa [State.refill_done busy, not_done] using hdone }

/-- With no event pending there is nothing to be in step with. -/
theorem State.inStep_of_quiet {s : State} (hht : s.pendHt = false) (htc : s.pendTc = false) : s.InStep := by
  constructor <;> simp [hht, htc]

/-- Clearing events or stopping keeps SER and RFL in step, where the read position stays. -/
theorem State.InStep.mono {s t : State} (hs : s.InStep) (hht : t.pendHt = true → s.pendHt = true)
    (htc : t.pendTc = true → s.pendTc = true) (hactive : t.active = true → s.active = true) (hrp : t.rp = s.rp) :
    t.InStep where
  oneEvent h := hs.oneEvent ⟨hht h.1, htc h.2⟩
  htInSecond ha h := hrp ▸ hs.htInSecond (hactive ha) (hht h)
  tcInFirst ha h := hrp ▸ hs.tcInFirst (hactive ha) (htc h)

/-- An EMIT without an underrun ends a half only while no event is pending, so the event it raises is the only one. -/
theorem State.inStep_sendUnit {s : State} (hs : s.InStep) (busy : s.active = true)
    (hf : s.sendUnit.hasFault .underrun = false) : s.sendUnit.InStep := by
  have quiet : s.rp.val = 23 ∨ s.rp.val = 47 → s.pendHt = false ∧ s.pendTc = false := by
    simp only [State.sendUnit_hasFault, Bool.or_eq_false_iff] at hf
    intro hend
    simpa [hend] using hf.2
  have hht := hs.htInSecond busy
  have htc := hs.tcInFirst busy
  have hrp := s.rp.isLt
  refine ⟨?_, fun _ h => ?_, fun _ h => ?_⟩
  · rintro ⟨h, h'⟩
    simp only [State.sendUnit_pendHt, State.sendUnit_pendTc, Bool.or_eq_true, decide_eq_true_eq] at h h'
    obtain h | h := h <;> obtain h' | h' := h'
    · exact hs.oneEvent ⟨h, h'⟩
    · simp [(quiet (.inr h')).1] at h
    · simp [(quiet (.inl h)).2] at h'
    · omega
  · simp only [State.sendUnit_pendHt, Bool.or_eq_true, decide_eq_true_eq] at h
    simp only [State.sendUnit_rp, nextRp_val]
    obtain h | h := h
    · have hlast : s.rp.val ≠ 47 := fun h47 => by simp [(quiet (.inr h47)).1] at h
      have := hht h
      omega
    · omega
  · simp only [State.sendUnit_pendTc, Bool.or_eq_true, decide_eq_true_eq] at h
    simp only [State.sendUnit_rp, nextRp_val]
    obtain h | h := h
    · have hlast : s.rp.val ≠ 23 := fun h23 => by simp [(quiet (.inl h23)).2] at h
      have := htc h
      omega
    · omega

theorem State.inStep_refill {s : State} (hs : s.InStep) (busy : s.active = true) (k : Half) : (s.refill k).InStep := by
  refine hs.mono ?_ ?_ (fun _ => busy) (by simp)
  · simp +contextual [State.refill_pendHt busy]
  · simp +contextual [State.refill_pendTc busy]

theorem State.SameStream.inv {s t : State} (same : s.SameStream t) (hs : s.Inv) : t.Inv := by
  obtain ⟨hk, hi⟩ := hs
  refine ⟨same.kept hk, fun hf => (hi (State.noFault_of_le same.faults hf)).mono ?_ ?_ ?_ same.rp⟩
  · rw [same.pendHt]; exact id
  · rw [same.pendTc]; exact id
  · rw [same.active]; exact id

/-- Every instruction keeps the invariant (R38). -/
theorem exec_keeps_inv {i : Instr} {s t : State} (hs : s.Inv) (h : exec i s = .next t) : t.Inv := by
  have older := exec_keeps_faults h
  obtain ⟨hk, hi⟩ := hs
  cases exec_completes h with
  | passive _ same => exact same.inv ⟨hk, hi⟩
  | refusedStart _ same => exact same.inv ⟨hk, hi⟩
  | start => exact ⟨State.kept_start hk, fun _ => State.inStep_of_quiet rfl rfl⟩
  | emit busy =>
    exact ⟨State.kept_sendUnit hk busy, fun hf => State.inStep_sendUnit
      (hi (State.noFault_of_le (older (by simp)) hf)) busy (State.noFault_iff _ |>.1 hf _)⟩
  | refill k busy =>
    exact ⟨State.kept_refill hk busy k, fun hf => State.inStep_refill
      (hi (State.noFault_of_le (older (by cases k <;> simp [refillInstr])) hf)) busy k⟩
  | reset => exact ⟨s.kept_reset, fun _ => State.inStep_of_quiet rfl rfl⟩

theorem State.inv_powerOn (c : Config) : (State.powerOn c).Inv :=
  ⟨State.kept_powerOn c, fun _ => State.inStep_of_quiet rfl rfl⟩

/-- After power-on `BUF` is zero and nothing has been sent (R66). -/
theorem State.legalUnits_powerOn (c : Config) : (State.powerOn c).LegalUnits where
  buffered j := by
    have hz : (State.powerOn c).buf.unit j = z0 := zeroBuf_unit j
    simp [hz, legalUnit]
  sent _ h := nomatch h

/-- Settles O53: taking an input or counting a turn leaves the stream alone, and every instruction keeps `Inv`. -/
theorem everyStepKeepsTheInvariant : Obligations.EveryStepKeepsTheInvariant := by
  intro s t hs h
  obtain ⟨x, rest, i, -, -, h⟩ | ⟨-, a, -, h⟩ | ⟨-, rfl⟩ := step_next_cases h
  · exact exec_keeps_inv (s.sameStream_dropInput.inv hs) h
  · exact exec_keeps_inv (s.sameStream_countTurn.inv hs) h
  · exact s.sameStream_countTurn.inv hs

/-- Settles O54: `Inv` holds at power-on and is kept; its seven items are read off. -/
theorem reachableFaultFreeStatesMeetTheInvariants : Obligations.ReachableFaultFreeStatesMeetTheInvariants := by
  intro c sched s h hf
  obtain ⟨hk, hi⟩ := execAll_keeps exec_keeps_inv (State.inv_powerOn c) h
  have hi := hi hf
  have hrp := s.rp.isLt
  refine ⟨hk.resetLeft_le, fun hpos => by simp [hk.resetFirst hpos], hk.ledIndex_le, hi.oneEvent, hk.idleQuiet,
    hk.doneIdle, fun ha => ⟨fun hht => ⟨hi.htInSecond ha hht, by omega⟩, fun htc => ?_⟩⟩
  have := hi.tcInFirst ha htc
  omega

/-- Settles O52: `Inv` and `LegalUnits` hold after the power-on RESET of every configuration, the built one included. -/
theorem powerOnMeetsTheInvariant : Obligations.PowerOnMeetsTheInvariant :=
  ⟨fun c => ⟨State.inv_powerOn c, State.legalUnits_powerOn c⟩, State.inv_powerOn _, State.legalUnits_powerOn _⟩

/-! ### STATUS, the phase and the outputs (R22, R32, R35) -/

/-- A field of STATUS is the given word if STATUS holds its number there. -/
theorem status_field_eq {s : State} {len : Nat} (lo : Nat) {x : BitVec len}
    (h : s.status.toNat / 2 ^ lo % 2 ^ len = x.toNat) : s.status.extractLsb' lo len = x :=
  BitVec.eq_of_toNat_eq ((toNat_field ..).trans h)

theorem status_flag_eq {s : State} (lo : Nat) {x : Bool} (h : s.status.toNat / 2 ^ lo % 2 = x.toNat) :
    s.status.extractLsb' lo 1 = BitVec.ofBool x :=
  status_field_eq lo (by rwa [BitVec.toNat_ofBool])

theorem status_field_eq_zero {s : State} {len : Nat} (lo : Nat) (h : s.status.toNat / 2 ^ lo % 2 ^ len = 0) :
    s.status.extractLsb' lo len = 0#len :=
  status_field_eq lo (by simpa using h)

theorem State.powerOn_status (c : Config) : (State.powerOn c).status = 0#32 :=
  BitVec.eq_of_toNat_eq (by simp [State.status_toNat, State.powerOn, State.phase, Phase.code])

/-- Settles O14: each field is cut out of STATUS as a number. -/
theorem statusLayout : Obligations.StatusLayout := by
  refine ⟨fun s => ?_, State.powerOn_status⟩
  have hsum := s.status_toNat
  have hphase := s.phase.code_lt
  have hled := s.ledIndex.isLt
  have hactive := s.active.toNat_le
  have hdone := s.done.toNat_le
  have hht := s.pendHt.toNat_le
  have htc := s.pendTc.toNat_le
  have hstart := s.fStartBusy.toNat_le
  have hwrite := s.fFbWriteBusy.toNat_le
  have hunder := s.fUnderrun.toNat_le
  have hillegal := s.fIllegalCmd.toNat_le
  have hcode : s.status.extractLsb 2 1 = s.phase.code := status_field_eq 1 (by omega)
  have hcode_ne : s.phase.code ≠ 3#2 := fun h => by simp [h] at hphase
  exact ⟨
    status_flag_eq 0 (by omega),
    hcode, hcode ▸ hcode_ne,
    status_flag_eq 3 (by omega),
    status_flag_eq 4 (by omega),
    status_flag_eq 5 (by omega),
    status_field_eq_zero 6 (by omega),
    status_flag_eq 8 (by omega),
    status_flag_eq 9 (by omega),
    status_flag_eq 10 (by omega),
    status_flag_eq 11 (by omega),
    status_field_eq_zero 12 (by omega),
    status_field_eq 16 (by omega)⟩

/-- STATUS.BUSY is `active` (R21, R32). -/
theorem State.status_getLsbD_zero (s : State) : s.status.getLsbD 0 = s.active := by
  simp only [State.status, BitVec.getLsbD_append]
  simp

/-- Settles O15: the line is gated by `active`, and the phase is decided by `active` and `reset_left`. -/
theorem outputsAndPhaseFollowTheState : Obligations.OutputsAndPhaseFollowTheState := by
  intro s
  refine ⟨fun idle i => by simp [State.line, idle], Iff.rfl, ?_⟩
  unfold State.phase
  cases ha : s.active
  · simp
  · by_cases h0 : 0 < s.resetLeft.toNat
    · simp [h0]; omega
    · simp [h0]; omega

/-- Settles O48: the reset values as written, and the accepted branch of TRANSMIT. -/
theorem powerOnState : Obligations.PowerOnState := by
  intro c s
  have hstart : exec .transmit s = .next ((s.startTransmission.record .start).respond .ok 0) :=
    exec_transmit_idle rfl
  exact ⟨rfl, rfl, rfl, rfl, zeroBuf_unit, rfl, rfl, rfl, rfl, rfl, by simp [s, State.powerOn, drawnFrame], rfl,
    State.powerOn_status c, rfl, _, hstart, rfl, rfl⟩

/-! ### HOST and the stream (R39, R58) -/

/-- A HOST command takes the same branch and gives the same answer whatever `BUF` and `rp` hold. -/
theorem exec_command_responses_of_buf_rp {c : Instr} (hc : c = .transmit ∨ PassiveCommand c) (s : State) (b : Buf)
    (j : Fin 48) : ∃ t u : State, exec c s = .next t ∧ exec c { s with buf := b, rp := j } = .next u ∧
      u.responses = t.responses := by
  obtain rfl | hc := hc
  · obtain busy | idle := s.active.eq_false_or_eq_true
    · exact ⟨_, _, exec_transmit_busy busy, exec_transmit_busy busy, rfl⟩
    · exact ⟨_, _, exec_transmit_idle idle, exec_transmit_idle idle, rfl⟩
  cases hc with
  | wrpix idx p =>
    obtain out | inside := le_or_gt s.cfg.N idx.toNat
    · exact ⟨_, _, exec_wrpix_bounds out p, exec_wrpix_bounds (s := { s with buf := b, rp := j }) out p, rfl⟩
    obtain busy | idle := s.active.eq_false_or_eq_true
    · exact ⟨_, _, exec_wrpix_busy inside busy p,
        exec_wrpix_busy (s := { s with buf := b, rp := j }) inside busy p, rfl⟩
    · exact ⟨_, _, exec_wrpix_idle inside idle p,
        exec_wrpix_idle (s := { s with buf := b, rp := j }) inside idle p, rfl⟩
  | rdpix idx =>
    obtain out | inside := le_or_gt s.cfg.N idx.toNat
    · exact ⟨_, _, exec_rdpix_bounds out, exec_rdpix_bounds out, rfl⟩
    · exact ⟨_, _, exec_rdpix_ok inside, exec_rdpix_ok inside, rfl⟩
  | rdstat => exact ⟨_, _, exec_rdstat _, exec_rdstat _, rfl⟩
  | illegal w => exact ⟨_, _, exec_illegal .., exec_illegal .., rfl⟩

/-- Settles O25: every command word decodes to a HOST command. -/
theorem hostCannotReadTheDoubleBuffer : Obligations.HostCannotReadTheDoubleBuffer := fun _ =>
  exec_command_responses_of_buf_rp (or_iff_not_imp_left.2 passiveCommand_decodeCommand)

/-- Settles O26: such a word decodes to a passive command. -/
theorem hostCannotWriteTheStream : Obligations.HostCannotWriteTheStream := by
  intro w s t hw h
  have same := exec_passive_sameStream (passiveCommand_decodeCommand hw) h
  exact ⟨same.buf, same.rp, same.resetLeft, same.pendHt, same.pendTc, same.active, same.ledIndex, same.done, same.wire⟩

/-! ### Who writes which element (R21 to R31, R36) -/

/-- Settles O34: STOP is the one branch of a refill that clears `active`. -/
theorem activeIsWrittenOnlyByStartStopReset : Obligations.ActiveIsWrittenOnlyByStartStopReset := by
  intro i s t h
  refine ⟨t.status_getLsbD_zero, ?_⟩
  cases exec_completes h with
  | passive hi same => cases hi <;> simp +contextual [same.active]
  | refusedStart busy same => simp [same.active, busy]
  | start idle => simp [idle]
  | emit busy => simp [busy]
  | refill k busy =>
    have hstop := State.refill_active_eq_false_iff busy k
    have hdone := State.refill_done busy k
    cases k <;> simp +contextual [refillInstr, busy, ← hstop, hdone]
  | reset => simp

/-- Settles O35: the invariant bounds `led_index`, so that no branch of a refill wraps. -/
theorem countersMoveOnlyAsStated : Obligations.CountersMoveOnlyAsStated := by
  rintro i s t ⟨hk, -⟩ h
  cases exec_completes h with
  | passive hi same => cases hi <;> exact ⟨same.ledIndex, same.resetLeft⟩
  | refusedStart busy same => simp [busy, same.ledIndex, same.resetLeft]
  | start idle => simpa [idle] using resetLeft_load_toNat s.cfg
  | emit => simp
  | refill k => cases k <;> exact State.refill_counters hk.ledIndex_le _
  | reset => simp

/-- Settles O36: EMIT is the only action of the block that writes `rp`. -/
theorem readPositionMovesOnlyAsStated : Obligations.ReadPositionMovesOnlyAsStated := by
  intro i s t h
  cases exec_completes h with
  | passive hi same => cases hi <;> simp [same.rp]
  | refusedStart busy same => simp [busy, same.rp]
  | start idle => simp [idle]
  | emit => simp
  | refill k => cases k <;> simp [refillInstr]
  | reset => simp

/-- Settles O37: EMIT adds the event of the half it ends, and a refill that stops clears both. -/
theorem pendingFlagsChangeOnlyAsStated : Obligations.PendingFlagsChangeOnlyAsStated := by
  intro i s t h
  cases exec_completes h with
  | passive hi same => cases hi <;> simp [same.pendHt, same.pendTc]
  | refusedStart busy same => simp [busy, same.pendHt, same.pendTc]
  | start idle => simp [idle]
  | emit => simp [beq_eq_decide, Fin.ext_iff]
  | refill k busy => cases k <;> simp [refillInstr, State.refill_pendHt busy, State.refill_pendTc busy]
  | reset => simp

/-- Settles O38: a refill sets `done` in its STOP branch alone. -/
theorem doneChangesOnlyAsStated : Obligations.DoneChangesOnlyAsStated := by
  intro i s t h
  refine ⟨rfl, ?_⟩
  cases exec_completes h with
  | passive hi same => cases hi <;> simp [same.done]
  | refusedStart busy same => simp [busy, same.done]
  | start idle => simp [idle]
  | emit => simp
  | refill k busy => cases k <;> exact State.refill_done busy _
  | reset => simp

/-- Settles O39: an update other than RESET only adds fault bits. -/
theorem faultBitsAreSticky : Obligations.FaultBitsAreSticky := by
  intro i s t f h
  refine ⟨fun hi => exec_keeps_faults h hi f, ?_⟩
  rintro rfl
  rw [exec_reset] at h
  cases h
  simp

/-- Settles O41: WRPIX by its three branches, every other instruction by its frame. -/
theorem frameBufferIsWrittenOnlyByWrpixAndReset : Obligations.FrameBufferIsWrittenOnlyByWrpixAndReset := by
  intro i s t h hreset
  by_cases hw : ∃ idx p, i = .wrpix idx p
  · obtain ⟨idx, p, rfl⟩ := hw
    exact .inr ⟨idx, p, rfl, fun n hn => exec_wrpix_pixel_other h hn⟩
  · have hw : ∀ idx p, i ≠ .wrpix idx p := fun idx p hi => hw ⟨idx, p, hi⟩
    exact .inl ⟨hw, exec_fb h hreset hw⟩

/-- Settles O42: each refill rewrites its own half. -/
theorem doubleBufferIsWrittenOnlyAsStated : Obligations.DoubleBufferIsWrittenOnlyAsStated := by
  intro i s t h
  cases exec_completes h with
  | passive hi same => cases hi <;> exact same.buf
  | refusedStart _ same => exact fun _ => same.buf
  | start idle => simp [idle]
  | emit => simp
  | refill k => cases k <;> simp [refillInstr]
  | reset => exact zeroBuf_unit

/-- Settles O43: the record is appended in the three steps that make one. -/
theorem wireRecordsExactlyTheOutput : Obligations.WireRecordsExactlyTheOutput := by
  intro i s t h
  cases exec_completes h with
  | passive hi same => cases hi <;> simp [same.wire]
  | refusedStart busy same => simp [busy, same.wire]
  | start idle => simp [idle]
  | emit => simp
  | refill k => cases k <;> simp [refillInstr]
  | reset => simp

/-- Settles O44: neither taking an input, nor counting a turn, nor an instruction writes it. -/
theorem configurationNeverChanges : Obligations.ConfigurationNeverChanges := by
  intro s t h
  obtain ⟨x, rest, i, -, -, h⟩ | ⟨-, a, -, h⟩ | ⟨-, rfl⟩ := step_next_cases h
  · exact (exec_cfg h).trans s.dropInput_cfg
  · exact (exec_cfg h).trans s.countTurn_cfg
  · exact s.countTurn_cfg

end Sys2Proof.Machine
end

section
/-! SUPPORT. Memory: a written pixel reads back (R40, R48), a repeated command but TRANSMIT has no further effect (R49),
and a fault-free transmission leaves the frame buffer as it was (R53). -/

namespace Sys2Proof.Machine

/-! ### Reading after writing (R40, R48) -/

/-- Read after write at any two indices of the frame buffer. -/
theorem State.pixel_writePixel {s : State} {idx other : BitVec 16} (h : idx.toNat < s.fb.length) (p : Pixel) :
    (s.writePixel idx.toNat p).pixel other.toNat = if other = idx then p else s.pixel other.toNat := by
  split_ifs with heq
  · rw [heq, State.pixel_writePixel_same h]
  · exact s.pixel_writePixel_other (mt BitVec.eq_of_toNat_eq heq) p

/-- Settles O23: the write is accepted, and the read that follows answers the stored pixel. -/
theorem writtenPixelReadsBack : Obligations.WrittenPixelReadsBack := by
  intro s idx other p frame idle hidx hother
  have stored := State.pixel_writePixel (other := other) (((Memory.wf_iff _ _).1 frame).symm ▸ hidx) p
  refine ⟨_, _, exec_wrpix_idle hidx idle p, exec_rdpix_ok hother, ?_⟩
  rw [← stored]
  rfl

/-! ### The same command twice (R49) -/

/-- A fault bit and a response are written independently of each other. -/
theorem State.raise_respond (s : State) (f : FaultBit) (c : RespCode) (d : BitVec 32) :
    (s.respond c d).raise f = (s.raise f).respond c d := by cases f <;> rfl

/-- Raising a fault again changes nothing (R29). -/
theorem State.raise_raise (s : State) (f : FaultBit) : (s.raise f).raise f = s.raise f := by cases f <;> rfl

/-- A pixel and a response are written independently of each other. -/
theorem State.writePixel_respond (s : State) (i : Nat) (p : Pixel) (c : RespCode) (d : BitVec 32) :
    (s.respond c d).writePixel i p = (s.writePixel i p).respond c d := rfl

/-- Writing the same pixel again changes nothing (R48). -/
theorem State.writePixel_writePixel (s : State) (i : Nat) (p : Pixel) :
    (s.writePixel i p).writePixel i p = s.writePixel i p := by
  simp [State.writePixel, Memory.write]

/-- A passive command updates the state to some `u` and answers; issued again it only repeats its answer. -/
theorem exec_passive_twice {i : Instr} (hi : PassiveCommand i) (s : State) :
    ∃ (u : State) (c : RespCode) (d : BitVec 32), u.responses = s.responses ∧
      exec i s = .next (u.respond c d) ∧ exec i (u.respond c d) = .next ((u.respond c d).respond c d) := by
  cases hi with
  | wrpix idx p =>
    obtain out | inside := le_or_gt s.cfg.N idx.toNat
    · exact ⟨s, _, _, rfl, exec_wrpix_bounds out p, exec_wrpix_bounds (s := s.respond .errBounds 0) out p⟩
    obtain busy | idle := s.active.eq_false_or_eq_true
    · refine ⟨s.raise .fbWriteBusy, _, _, rfl, exec_wrpix_busy inside busy p, ?_⟩
      rw [exec_wrpix_busy (s := (s.raise .fbWriteBusy).respond .errBusy 0) inside busy, State.raise_respond,
        State.raise_raise]
    · refine ⟨s.writePixel idx.toNat p, _, _, rfl, exec_wrpix_idle inside idle p, ?_⟩
      rw [exec_wrpix_idle (s := (s.writePixel idx.toNat p).respond .ok 0) inside idle, State.writePixel_respond,
        State.writePixel_writePixel]
  | rdpix idx =>
    obtain out | inside := le_or_gt s.cfg.N idx.toNat
    · exact ⟨s, _, _, rfl, exec_rdpix_bounds out, exec_rdpix_bounds out⟩
    · exact ⟨s, _, _, rfl, exec_rdpix_ok inside, exec_rdpix_ok inside⟩
  | rdstat => exact ⟨s, _, _, rfl, exec_rdstat _, exec_rdstat _⟩
  | illegal w =>
    refine ⟨s.raise .illegalCmd, _, _, rfl, exec_illegal .., ?_⟩
    rw [exec_illegal, State.raise_respond, State.raise_raise]

/-- After a TRANSMIT, accepted or not, a transmission is running (R83). -/
theorem exec_transmit_active (s : State) : ∃ t, exec .transmit s = .next t ∧ t.active = true := by
  obtain busy | idle := s.active.eq_false_or_eq_true
  · exact ⟨_, exec_transmit_busy busy, busy⟩
  · exact ⟨_, exec_transmit_idle idle, rfl⟩

/-- Settles O24: a command word that is no TRANSMIT decodes to a passive command, and a second TRANSMIT finds the block
busy. -/
theorem commandsButTransmitAreIdempotent : Obligations.CommandsButTransmitAreIdempotent := by
  refine ⟨fun w s hw => ?_, fun s => ?_⟩
  · obtain ⟨u, c, d, same, first, second⟩ := exec_passive_twice (passiveCommand_decodeCommand hw) s
    exact ⟨u.respond c d, ⟨c, d⟩, first, by rw [State.respond_responses, same], second⟩
  · obtain ⟨t, ht, busy⟩ := exec_transmit_active s
    exact ⟨t, _, ht, exec_transmit_busy busy, rfl⟩

/-! ### The frame buffer during a transmission (R53) -/

/-- While a transmission runs, a step other than RESET that ends with no fault bit set leaves the frame buffer: a WRPIX
that addresses a pixel would have raised F_FB_WRITE_BUSY (R133). -/
theorem exec_fb_of_busy {i : Instr} {s t : State} (h : exec i s = .next t) (busy : s.active = true)
    (hreset : i ≠ .reset) (clean : t.noFault = true) : t.fb = s.fb := by
  by_cases hw : ∃ idx p, i = .wrpix idx p
  · obtain ⟨idx, p, rfl⟩ := hw
    obtain out | inside := le_or_gt s.cfg.N idx.toNat
    · rw [exec_wrpix_bounds out] at h
      cases h
      rfl
    · rw [exec_wrpix_busy inside busy] at h
      cases h
      have raised := (State.noFault_iff _).1 clean .fbWriteBusy
      simp at raised
  · exact exec_fb h hreset fun idx p hi => hw ⟨idx, p, hi⟩

/-- A transmission that runs after a step other than TRANSMIT ran before it (R21). -/
theorem active_of_exec_active {i : Instr} {s t : State} (h : exec i s = .next t) (hi : i ≠ .transmit)
    (running : t.active = true) : s.active = true := by
  obtain ⟨-, -, -, hstart, -⟩ := activeIsWrittenOnlyByStartStopReset i s t h
  by_contra idle
  exact hi (hstart (Bool.eq_false_iff.2 idle) running)

/-- A schedule without TRANSMIT and RESET that ends running and with no fault bit set was so all along, and left the
frame buffer. -/
theorem execAll_running_back {sched : List Instr} {s t : State} (h : execAll sched s = .next t)
    (noStart : Instr.transmit ∉ sched) (noReset : Instr.reset ∉ sched) (running : t.active = true)
    (clean : t.noFault = true) : s.active = true ∧ s.noFault = true ∧ t.fb = s.fb := by
  induction sched generalizing s with
  | nil => cases h; exact ⟨running, clean, rfl⟩
  | cons i is ih =>
    obtain ⟨hstart, noStart⟩ := not_or.1 (mt List.mem_cons.2 noStart)
    obtain ⟨hreset, noReset⟩ := not_or.1 (mt List.mem_cons.2 noReset)
    obtain ⟨u, hu, h⟩ := execAll_cons_next_iff.1 h
    obtain ⟨running_u, clean_u, hfb⟩ := ih h noStart noReset
    have busy := active_of_exec_active hu (Ne.symm hstart) running_u
    exact ⟨busy, State.noFault_of_le (exec_keeps_faults hu (Ne.symm hreset)) clean_u,
      hfb.trans (exec_fb_of_busy hu busy (Ne.symm hreset) clean_u)⟩

/-- At every point of a fault-free transmission's body the transmission runs, no fault bit is set, and the frame buffer
is the one at its end. -/
theorem FaultFreeTransmission.during {s : State} {before after : List Instr} {u : State} {last : Instr} {t : State}
    (h : FaultFreeTransmission s (before ++ after) u last t) :
    ∃ v : State, execAll (.transmit :: before) s = .next v ∧ execAll after v = .next u ∧
      v.active = true ∧ v.noFault = true ∧ u.fb = v.fb := by
  have clean := State.noFault_of_le (exec_keeps_faults h.stops h.noReset.2) h.noFault
  obtain ⟨v, hv, hu⟩ := execAll_append_next_iff.1 (List.cons_append ▸ h.runs)
  exact ⟨v, hv, hu, execAll_running_back hu (fun hm => h.noSecondStart (List.mem_append_right _ hm))
    (fun hm => h.noReset.1 (List.mem_append_right _ hm)) h.running clean⟩

/-- The accepted TRANSMIT leaves the frame buffer, and so does the whole body (R53). -/
theorem FaultFreeTransmission.fb_before_last {s : State} {body : List Instr} {u : State} {last : Instr} {t : State}
    (h : FaultFreeTransmission s body u last t) : u.fb = s.fb := by
  obtain ⟨v, hv, -, -, -, hfb⟩ := FaultFreeTransmission.during (before := []) h
  rw [execAll_cons_next_iff, exec_transmit_idle h.idle] at hv
  obtain ⟨_, start, hv⟩ := hv
  cases start
  cases hv
  exact hfb

/-- Settles O56: the frame buffer at any point of the body is the one at its end, which is the one at TRANSMIT. -/
theorem frameIsCapturedAtTransmit : Obligations.FrameIsCapturedAtTransmit := by
  intro s body u last t h
  refine ⟨(exec_fb_of_busy h.stops h.running h.noReset.2 h.noFault).trans h.fb_before_last, ?_⟩
  rintro before after rfl
  obtain ⟨v, hv, -, busy, -, hfb⟩ := h.during
  exact ⟨v, hv, hfb.symm.trans h.fb_before_last, busy⟩

end Sys2Proof.Machine
end

section
/-! SUPPORT. Encoding: the decoder and the encoder are inverse to each other (R60, R61, R65, R69), the words of each
command and the reserved ones (R61, R62), the response word (R64), the units of a pixel and the three units that are
sent (R66, R67), and the assembled command lines (R70). -/

namespace Sys2Proof

/-! ### The decoder and the encoder (R60, R61, R65, R69) -/

/-- The 24 pixel bits are zero exactly if the three channels are (R60). -/
theorem rgb_eq_zero_iff (w : CommandWord) : w.extractLsb' 0 24 = 0#24 ↔ pixelField w = noPixel := by
  simp only [pixelField, noPixel, Pixel.mk.injEq, ← BitVec.toNat_inj, toNat_field, BitVec.ofNat_eq_ofNat,
    BitVec.toNat_ofNat]
  omega

/-- Every way a command word can decode, with the fields that make it so (R69). -/
theorem decodeCommand_cases (w : CommandWord) :
    (decodeCommand w = .transmit ∧
      opField w = 0x1#4 ∧ w.extractLsb' 40 20 = 0#20 ∧ idxField w = 0#16 ∧ pixelField w = noPixel) ∨
    (decodeCommand w = .wrpix (idxField w) (pixelField w) ∧ opField w = 0x2#4 ∧ w.extractLsb' 40 20 = 0#20) ∨
    (decodeCommand w = .rdpix (idxField w) ∧
      opField w = 0x3#4 ∧ w.extractLsb' 40 20 = 0#20 ∧ pixelField w = noPixel) ∨
    (decodeCommand w = .rdstat ∧
      opField w = 0x4#4 ∧ w.extractLsb' 40 20 = 0#20 ∧ idxField w = 0#16 ∧ pixelField w = noPixel) ∨
    decodeCommand w = .illegal w := by
  simp only [← rgb_eq_zero_iff]
  unfold decodeCommand
  dsimp only
  split_ifs with transmit wrpix rdpix rdstat
  · exact .inl ⟨rfl, transmit⟩
  · exact .inr (.inl ⟨rfl, wrpix⟩)
  · exact .inr (.inr (.inl ⟨rfl, rdpix⟩))
  · exact .inr (.inr (.inr (.inl ⟨rfl, rdstat⟩)))
  · exact .inr (.inr (.inr (.inr rfl)))

/-- An OP that selects no command is none of the four (R60). -/
theorem reservedOp_ne {op : BitVec 4} (h : op = 0x0#4 ∨ 0x5#4 ≤ op) :
    op ≠ 0x1#4 ∧ op ≠ 0x2#4 ∧ op ≠ 0x3#4 ∧ op ≠ 0x4#4 := by
  bv_omega

/-- An OP selects no command or one of the four (R60). -/
theorem op_cases (op : BitVec 4) :
    (op = 0x0#4 ∨ 0x5#4 ≤ op) ∨ op = 0x1#4 ∨ op = 0x2#4 ∨ op = 0x3#4 ∨ op = 0x4#4 := by
  bv_omega

/-- R62's list of the words that stand for no command. -/
def ReservedWord (w : CommandWord) : Prop :=
  opField w = 0x0#4 ∨ 0x5#4 ≤ opField w ∨
  (opField w = 0x1#4 ∧ ¬(w.extractLsb' 40 20 = 0#20 ∧ w.extractLsb' 24 16 = 0#16 ∧ w.extractLsb' 0 24 = 0#24)) ∨
  (opField w = 0x2#4 ∧ w.extractLsb' 40 20 ≠ 0#20) ∨
  (opField w = 0x3#4 ∧ ¬(w.extractLsb' 40 20 = 0#20 ∧ w.extractLsb' 0 24 = 0#24)) ∨
  (opField w = 0x4#4 ∧ ¬(w.extractLsb' 40 20 = 0#20 ∧ w.extractLsb' 24 16 = 0#16 ∧ w.extractLsb' 0 24 = 0#24))

/-- The independent check of R62 accepts exactly the reserved words. -/
theorem isIllegalWord_iff_reserved (w : CommandWord) : isIllegalWord w = true ↔ ReservedWord w := by
  simp only [ReservedWord, rgb_eq_zero_iff, pixelField, noPixel, Pixel.mk.injEq]
  obtain h | h | h | h | h := op_cases (opField w)
  · simp [isIllegalWord, ← or_assoc, h]
  all_goals simp [isIllegalWord, mustBeZeroOk, fieldZero, h, -not_and, not_and_or, or_assoc]

/-- The decoder's last branch takes exactly the reserved words (R68, R69). -/
theorem decodeCommand_eq_illegal_iff_reserved (w : CommandWord) : decodeCommand w = .illegal w ↔ ReservedWord w := by
  unfold decodeCommand ReservedWord opField
  rw [← or_assoc]
  obtain h | h | h | h | h := op_cases (w.extractLsb' 60 4)
  · obtain ⟨h1, h2, h3, h4⟩ := reservedOp_ne h
    simp [h1, h2, h3, h4, h]
  all_goals simp [h]

/-- A well-formed command's word decodes to it (R60, R61, R69). -/
theorem decodeCommand_wrpix (idx : BitVec 16) (p : Pixel) :
    decodeCommand (commandWord 0x2#4 idx p) = .wrpix idx p := by
  simp [decodeCommand, op_commandWord, rsv_commandWord, idxField, idx_commandWord, pixelField_commandWord]

theorem decodeCommand_rdpix (idx : BitVec 16) : decodeCommand (commandWord 0x3#4 idx noPixel) = .rdpix idx := by
  simp [decodeCommand, op_commandWord, rsv_commandWord, idxField, idx_commandWord, rgb_eq_zero_iff,
    pixelField_commandWord]

/-- Settles O1: each command by the fields of the word built for it, a reserved word by the decoder's last branch. -/
theorem decodeOfEncodeIsIdentity : Obligations.DecodeOfEncodeIsIdentity := by
  intro i wf
  cases i with
  | transmit => rfl
  | wrpix idx p => exact congrArg Except.ok (decodeCommand_wrpix idx p)
  | rdpix idx => exact congrArg Except.ok (decodeCommand_rdpix idx)
  | rdstat => rfl
  | illegal w =>
    exact congrArg Except.ok ((decodeCommand_eq_illegal_iff_reserved w).2 ((isIllegalWord_iff_reserved w).1 wf))
  | emit | refillHt | refillTc | reset => rfl

/-- A word is built from its OP, IDX and pixel fields if its RSV is zero. -/
theorem commandWord_eq {w : CommandWord} {op : BitVec 4} {idx : BitVec 16} {p : Pixel} (hop : opField w = op)
    (hrsv : w.extractLsb' 40 20 = 0#20) (hidx : idxField w = idx) (hp : pixelField w = p) :
    commandWord op idx p = w := by
  subst hop hidx hp
  exact commandWord_of_fields hrsv

/-- What a command word decodes to is well formed and encodes back to it (R61, R68). -/
theorem encode_decodeCommand (w : CommandWord) :
    (decodeCommand w).wf = true ∧ encode (decodeCommand w) = .command w := by
  obtain ⟨h, hop, hrsv, hidx, hp⟩ | ⟨h, hop, hrsv⟩ | ⟨h, hop, hrsv, hp⟩ | ⟨h, hop, hrsv, hidx, hp⟩ | h :=
    decodeCommand_cases w
  · rw [h]; exact ⟨rfl, congrArg Input.command (commandWord_eq hop hrsv hidx hp)⟩
  · rw [h]; exact ⟨rfl, congrArg Input.command (commandWord_eq hop hrsv rfl rfl)⟩
  · rw [h]; exact ⟨rfl, congrArg Input.command (commandWord_eq hop hrsv rfl hp)⟩
  · rw [h]; exact ⟨rfl, congrArg Input.command (commandWord_eq hop hrsv hidx hp)⟩
  · have reserved := (decodeCommand_eq_illegal_iff_reserved w).1 h
    rw [h]; exact ⟨(isIllegalWord_iff_reserved w).2 reserved, rfl⟩

/-- What a label decodes to is well formed and encodes back to it (R65). -/
theorem encode_decodeLabel {ev : Label} {i : Instr} (h : decodeLabel ev = .ok i) :
    i.wf = true ∧ encode i = .label ev := by
  unfold decodeLabel at h
  split_ifs at h with emit refillHt refillTc reset <;> cases h
  · exact ⟨rfl, congrArg Input.label emit.symm⟩
  · exact ⟨rfl, congrArg Input.label refillHt.symm⟩
  · exact ⟨rfl, congrArg Input.label refillTc.symm⟩
  · exact ⟨rfl, congrArg Input.label reset.symm⟩

/-- Settles O2: by the kind of the input. -/
theorem encodeOfDecodeIsIdentity : Obligations.EncodeOfDecodeIsIdentity := by
  intro x i h
  cases x with
  | command w =>
    cases h
    exact encode_decodeCommand w
  | label ev => exact encode_decodeLabel h

/-- O1 and O2 together: what decodes to a well-formed instruction is its encoding alone. -/
theorem decodeCommand_eq_iff {i : Instr} (wf : i.wf = true) (w : CommandWord) :
    decodeCommand w = i ↔ encode i = .command w := by
  constructor
  · rintro rfl
    exact (encode_decodeCommand w).2
  · intro h
    have back := decodeOfEncodeIsIdentity i wf
    rw [h] at back
    exact Except.ok.inj back

/-- Settles O3: the decoder tests the fields in R69's order. -/
theorem decoderIsTheDecodeFunction : Obligations.DecoderIsTheDecodeFunction := fun _ => rfl

/-! ### The words of each command (R60, R61, R62) -/

/-- A field that lies inside a mask is left as it is. -/
theorem field_and_mask {w mask : CommandWord} {lo len : Nat} (h : mask.extractLsb' lo len = BitVec.allOnes len) :
    (w &&& mask).extractLsb' lo len = w.extractLsb' lo len := by
  rw [BitVec.extractLsb'_and, h, BitVec.and_allOnes]

/-- A mask over OP and RSV, and over the same bits of each channel, leaves the command and clears IDX. -/
theorem commandWord_and_mask (op : BitVec 4) (idx : BitVec 16) (p : Pixel) (m : Channel) :
    commandWord op idx p &&& (BitVec.allOnes 4 ++ BitVec.allOnes 20 ++ 0#16 ++ m ++ m ++ m) =
      commandWord op 0 ⟨p.r &&& m, p.g &&& m, p.b &&& m⟩ := by
  have fields : (op ++ 0#20 ++ idx ++ p.r ++ p.g ++ p.b) &&&
      (BitVec.allOnes 4 ++ BitVec.allOnes 20 ++ 0#16 ++ m ++ m ++ m) =
        op ++ 0#20 ++ 0#16 ++ (p.r &&& m) ++ (p.g &&& m) ++ (p.b &&& m) := by
    simp only [BitVec.and_append, BitVec.and_allOnes, BitVec.and_zero]
  exact fields

/-- The fixed bits of a WRPIX word: OP is 2 and RSV is zero. -/
theorem wrpix_mask_iff (w : CommandWord) : w &&& 0xFFFFFF0000000000#64 = 0x2000000000000000#64 ↔
    ∃ idx p, commandWord 0x2#4 idx p = w := by
  constructor
  · intro h
    have hop : opField w = 0x2#4 := (field_and_mask (by decide)).symm.trans (congrArg opField h)
    have hrsv : w.extractLsb' 40 20 = 0#20 :=
      (field_and_mask (by decide)).symm.trans (congrArg (BitVec.extractLsb' 40 20) h)
    exact ⟨_, _, commandWord_eq hop hrsv rfl rfl⟩
  · rintro ⟨idx, p, rfl⟩
    refine (commandWord_and_mask 0x2#4 idx p 0x00#8).trans ?_
    simp only [BitVec.and_zero]
    rfl

/-- The fixed bits of an RDPIX word: OP is 3, and RSV and the pixel bits are zero. -/
theorem rdpix_mask_iff (w : CommandWord) : w &&& 0xFFFFFF0000FFFFFF#64 = 0x3000000000000000#64 ↔
    ∃ idx, commandWord 0x3#4 idx noPixel = w := by
  constructor
  · intro h
    have hop : opField w = 0x3#4 := (field_and_mask (by decide)).symm.trans (congrArg opField h)
    have hrsv : w.extractLsb' 40 20 = 0#20 :=
      (field_and_mask (by decide)).symm.trans (congrArg (BitVec.extractLsb' 40 20) h)
    have hrgb : w.extractLsb' 0 24 = 0#24 :=
      (field_and_mask (by decide)).symm.trans (congrArg (BitVec.extractLsb' 0 24) h)
    exact ⟨_, commandWord_eq hop hrsv rfl ((rgb_eq_zero_iff w).1 hrgb)⟩
  · rintro ⟨idx, rfl⟩
    exact commandWord_and_mask 0x3#4 idx noPixel 0xFF#8

/-- Settles O4: a word decodes to a command exactly if it is one of the words built for it. -/
theorem commandWordsAreThoseOfTheOpMap : Obligations.CommandWordsAreThoseOfTheOpMap := by
  intro w
  have words {i : Instr} {v : CommandWord} (wf : i.wf = true) (h : encode i = .command v) :
      decodeCommand w = i ↔ v = w := by
    rw [decodeCommand_eq_iff wf, h, Input.command.injEq]
  refine ⟨(words rfl rfl).trans eq_comm, ?_, ?_, (words rfl rfl).trans eq_comm⟩
  · rw [wrpix_mask_iff]
    exact exists_congr fun idx => exists_congr fun p => words rfl rfl
  · rw [rdpix_mask_iff]
    exact exists_congr fun idx => words rfl rfl

/-- Settles O5: R62's list is the decoder's last branch, and ILLEGAL raises its fault and answers. -/
theorem reservedWordsAreIllegal : Obligations.ReservedWordsAreIllegal := by
  intro w
  refine ⟨decodeCommand_eq_illegal_iff_reserved w, fun s h => ?_⟩
  rw [h]
  exact Machine.exec_illegal w s

/-- A label other than the four is rejected by name (R65). -/
theorem decodeLabel_noAction {ev : Label} (h : ev = 0x0#4 ∨ 0x5#4 ≤ ev) : decodeLabel ev = .error (.noAction ev) := by
  obtain ⟨h1, h2, h3, h4⟩ := reservedOp_ne h
  simp [decodeLabel, h1, h2, h3, h4]

/-- Settles O6: no command word is the encoding of an internal action. -/
theorem labelsNameTheirActions : Obligations.LabelsNameTheirActions := by
  refine ⟨rfl, rfl, rfl, rfl, fun ev h => decodeLabel_noAction h, fun w i hi h => ?_⟩
  have back := (encodeOfDecodeIsIdentity _ i h).2
  obtain rfl | rfl | rfl | rfl := hi <;> cases back

/-- Settles O7: the decoder evaluated on the words. -/
theorem specWordsDecodeAsWritten : Obligations.SpecWordsDecodeAsWritten :=
  ⟨rfl, rfl, rfl, rfl, rfl, rfl, rfl, rfl, rfl⟩

end Sys2Proof

namespace Sys2Proof.Machine

/-! ### The response word (R64) -/

/-- A field of a response word is the given word if the response holds its number there. -/
theorem Response.field_eq {r : Response} {len : Nat} (lo : Nat) {x : BitVec len}
    (h : r.word.toNat / 2 ^ lo % 2 ^ len = x.toNat) : r.word.extractLsb' lo len = x :=
  BitVec.eq_of_toNat_eq ((toNat_field ..).trans h)

/-- Settles O8: each field is cut out of the response as a number. -/
theorem responseWordLayout : Obligations.ResponseWordLayout := by
  intro r
  have hsum := r.word_toNat
  have hcode := r.code.bits.isLt
  have hdata := r.data.isLt
  refine ⟨?_, Response.field_eq 32 (x := 0#30) ?_, Response.field_eq 0 ?_⟩
  · have code : r.word.extractLsb 63 62 = r.code.bits := Response.field_eq 62 (by omega)
    rw [code]
    cases r.code <;> rfl
  · simp only [BitVec.toNat_ofNat]
    omega
  · omega

/-! ### The units of a pixel (R67) -/

/-- Green, then red, then blue, eight units each (R44). -/
theorem unitChannel_eq_getD (p : Pixel) {u : Nat} (h : u < 24) : unitChannel p u = [p.g, p.r, p.b].getD (u / 8) 0 := by
  have byte : u / 8 = 0 ∨ u / 8 = 1 ∨ u / 8 = 2 := by omega
  obtain hu | hu | hu := byte <;> simp [unitChannel, hu]

/-- Settles O9: by the channel of each unit, and by the half a unit stands in. -/
theorem pixelUnitsFollowTheLayout : Obligations.PixelUnitsFollowTheLayout := by
  refine ⟨fun c p u => ?_, fun b us u => ⟨?_, ?_⟩⟩
  · rw [enc_getElem, unitBit, unitChannel_eq_getD p u.isLt]
  · simp [Buf.unit_writeHalf, Half.holds, Half.base]
  · have inside : 24 + u.val < 48 := by omega
    simp [Buf.unit_writeHalf, Half.holds, Half.base, inside]

/-! ### The units that are sent (R66) -/

theorem legalUnit_z0 (c : Config) : legalUnit c z0 = true := by simp [legalUnit]

/-- Every unit of a pixel's encoding is one of the two codes (R66, R67). -/
theorem legalUnit_enc (c : Config) (p : Pixel) (u : Nat) (h : u < 24) : legalUnit c (enc c p)[u] = true := by
  rw [enc_getElem]
  split_ifs <;> simp [legalUnit]

/-- Rewriting a half with legal units keeps the double buffer legal. -/
theorem legalUnit_writeHalf {c : Config} {b : Buf} {us : HalfUnits} (hb : ∀ j, legalUnit c (b.unit j) = true)
    (hus : ∀ (u : Nat) (h : u < 24), legalUnit c us[u] = true) (k : Half) (j : Fin 48) :
    legalUnit c ((b.writeHalf k us).unit j) = true := by
  rw [Buf.unit_writeHalf]
  split
  · exact hus _ _
  · exact hb j

/-- A refill leaves the double buffer, or writes a zero half or a pixel's encoding to its half (R104). -/
theorem State.refill_buf (s : State) (k : Half) :
    (s.refill k).buf = s.buf.writeHalf k zeroHalf ∨ (∃ p, (s.refill k).buf = s.buf.writeHalf k (enc s.cfg p)) ∨
      (s.refill k).buf = s.buf := by
  obtain ⟨-, h⟩ | ⟨-, -, h⟩ | ⟨-, -, h⟩ | ⟨-, -, h⟩ := s.refill_cases k
  · exact .inl (by rw [h])
  · exact .inr (.inl ⟨_, by rw [h]⟩)
  · exact .inl (by rw [h])
  · exact .inr (.inr (by rw [h, State.stop_buf]))

theorem State.LegalUnits.refill {s : State} (hs : s.LegalUnits) (k : Half) : (s.refill k).LegalUnits where
  buffered j := by
    rw [(s.refill_frame k).1]
    obtain h | ⟨p, h⟩ | h := s.refill_buf k <;> rw [h]
    · exact legalUnit_writeHalf hs.buffered (fun u hu => by rw [zeroHalf_getElem, legalUnit_z0]) k j
    · exact legalUnit_writeHalf hs.buffered (legalUnit_enc s.cfg p) k j
    · exact hs.buffered j
  sent := by simpa using hs.sent

/-- EMIT sends the buffered unit at `rp` (R103). -/
theorem State.LegalUnits.sendUnit {s : State} (hs : s.LegalUnits) : s.sendUnit.LegalUnits where
  buffered := by simpa using hs.buffered
  sent u hu := by
    rw [State.sendUnit_cfg]
    rw [State.sendUnit_wire, List.mem_append, List.mem_singleton] at hu
    obtain old | new := hu
    · exact hs.sent u old
    · cases new
      exact hs.buffered s.rp

/-- A zeroed double buffer and a `Start` or `Reset` record keep the units legal. -/
theorem State.LegalUnits.zeroed {s t : State} (hs : s.LegalUnits) {r : Record} (hcfg : t.cfg = s.cfg)
    (hbuf : t.buf = zeroBuf) (hwire : t.wire = s.wire ++ [r]) (hr : ∀ u, Record.unit u ≠ r) : t.LegalUnits where
  buffered j := by rw [hbuf, zeroBuf_unit, legalUnit_z0]
  sent u hu := by
    rw [hwire, List.mem_append, List.mem_singleton] at hu
    rw [hcfg]
    exact hs.sent u (hu.resolve_right (hr u))

theorem State.SameStream.legalUnits {s t : State} (same : s.SameStream t) (hs : s.LegalUnits) : t.LegalUnits where
  buffered := by rw [same.buf, same.cfg]; exact hs.buffered
  sent := by rw [same.wire, same.cfg]; exact hs.sent

/-- Every instruction keeps the units legal (R66). -/
theorem exec_keeps_legalUnits {i : Instr} {s t : State} (hs : s.LegalUnits) (h : exec i s = .next t) :
    t.LegalUnits := by
  cases exec_completes h with
  | passive _ same => exact same.legalUnits hs
  | refusedStart _ same => exact same.legalUnits hs
  | start => exact hs.zeroed rfl rfl rfl (by simp)
  | emit => exact hs.sendUnit
  | refill k => exact hs.refill k
  | reset => exact hs.zeroed rfl rfl rfl (by simp)

/-- Settles O55: taking an input or counting a turn leaves the stream alone, and every instruction keeps `LegalUnits`. -/
theorem onlyTheThreeUnitsAreEverSent : Obligations.OnlyTheThreeUnitsAreEverSent := by
  intro s t hs h
  obtain ⟨x, rest, i, -, -, h⟩ | ⟨-, a, -, h⟩ | ⟨-, rfl⟩ := step_next_cases h
  · exact exec_keeps_legalUnits (s.sameStream_dropInput.legalUnits hs) h
  · exact exec_keeps_legalUnits (s.sameStream_countTurn.legalUnits hs) h
  · exact s.sameStream_countTurn.legalUnits hs

/-! ### Assembled command lines (R70) -/

/-- An operand assembles exactly if it is at most the greatest value of its field. -/
theorem asmField_eq {w max : Nat} (hmax : max + 1 = 2 ^ w) (v : Nat) :
    asmField w v = if v ≤ max then .ok (BitVec.ofNat w v) else .error .outOfRange := by
  simp [asmField, ← hmax]

/-- A pixel operand assembles exactly if its three channels do. -/
theorem asmPixel_eq (r g b : Nat) : asmPixel r g b =
    if r ≤ 255 ∧ g ≤ 255 ∧ b ≤ 255 then .ok ⟨BitVec.ofNat 8 r, BitVec.ofNat 8 g, BitVec.ofNat 8 b⟩
    else .error .outOfRange := by
  simp only [asmPixel, asmField_eq (w := 8) (max := 255) (by norm_num)]
  by_cases hr : r ≤ 255
  · by_cases hg : g ≤ 255
    · by_cases hb : b ≤ 255
      · rw [if_pos hr, if_pos hg, if_pos hb, if_pos ⟨hr, hg, hb⟩]
        rfl
      · rw [if_pos hr, if_pos hg, if_neg hb, if_neg (c := _ ∧ _) fun h => hb h.2.2]
        rfl
    · rw [if_pos hr, if_neg hg, if_neg (c := _ ∧ _) fun h => hg h.2.1]
      rfl
  · rw [if_neg hr, if_neg (c := _ ∧ _) fun h => hr h.1]
    rfl

/-- A command word built from numbers in range is their sum at the fields' weights (R60). -/
theorem commandWord_ofNat {op : BitVec 4} {opWeight idx r g b : Nat} (hop : op.toNat * 2 ^ 60 = opWeight)
    (hidx : idx ≤ 65535) (hr : r ≤ 255) (hg : g ≤ 255) (hb : b ≤ 255) :
    commandWord op (BitVec.ofNat 16 idx) ⟨BitVec.ofNat 8 r, BitVec.ofNat 8 g, BitVec.ofNat 8 b⟩ =
      BitVec.ofNat 64 (opWeight + idx * 2 ^ 24 + r * 2 ^ 16 + g * 2 ^ 8 + b) := by
  subst hop
  apply BitVec.eq_of_toNat_eq
  have := op.isLt
  rw [commandWord_toNat]
  simp only [BitVec.toNat_ofNat]
  omega

/-- `WRPIX` assembles exactly if its index and its pixel do (R70). -/
theorem asmWrpix_eq (idx r g b : Nat) : asmWrpix idx r g b =
    if idx ≤ 65535 ∧ r ≤ 255 ∧ g ≤ 255 ∧ b ≤ 255 then
      .ok (.command (BitVec.ofNat 64 (0x2000000000000000 + idx * 2 ^ 24 + r * 2 ^ 16 + g * 2 ^ 8 + b)))
    else .error .outOfRange := by
  rw [asmWrpix, asmField_eq (max := 65535) (by norm_num), asmPixel_eq]
  by_cases hidx : idx ≤ 65535
  · by_cases hp : r ≤ 255 ∧ g ≤ 255 ∧ b ≤ 255
    · rw [if_pos hidx, if_pos hp, if_pos ⟨hidx, hp⟩]
      obtain ⟨hr, hg, hb⟩ := hp
      rw [← commandWord_ofNat (op := 0x2#4) (by norm_num) hidx hr hg hb]
      rfl
    · rw [if_pos hidx, if_neg hp, if_neg (not_and_of_not_right _ hp)]
      rfl
  · rw [if_neg hidx, if_neg (not_and_of_not_left _ hidx)]
    rfl

/-- `RDPIX` assembles exactly if its index does (R70). -/
theorem assemble_rdpix_eq (n idx : Nat) : assemble n (.rdpix idx) =
    if idx ≤ 65535 then .ok [.send (.command (BitVec.ofNat 64 (0x3000000000000000 + idx * 2 ^ 24)))]
    else .error .outOfRange := by
  rw [assemble, asmField_eq (max := 65535) (by norm_num)]
  split_ifs with hidx
  · have noChannels : 0x3000000000000000 + idx * 2 ^ 24 =
        0x3000000000000000 + idx * 2 ^ 24 + 0 * 2 ^ 16 + 0 * 2 ^ 8 + 0 := by omega
    rw [noChannels, ← commandWord_ofNat (op := 0x3#4) (by norm_num) hidx (by decide) (by decide) (by decide)]
    rfl
  · rfl

/-- Settles O60: an operand out of range ends the assembly, and the fields in range make up the word. -/
theorem assembledCommandsAreTheirWords : Obligations.AssembledCommandsAreTheirWords := by
  intro n idx r g b
  refine ⟨?_, assemble_rdpix_eq n idx, rfl, rfl⟩
  rw [assemble, asmWrpix_eq]
  split_ifs <;> rfl

end Sys2Proof.Machine
end

section
/-! SUPPORT. HOST commands (40_host_commands.md): the word and the rule of each command (R83 to R86, R88), the order of
the checks (R81), and that set fault bits change no effect (R87). -/

namespace Sys2Proof.Machine

/-! ### The word of each command (R60, R61) -/

/-- An instruction that has a command word is what that word, and no other, decodes to. -/
theorem decode_command_eq_ok_iff {i : Instr} {v : CommandWord} (wf : i.wf = true) (hv : encode i = .command v)
    (w : CommandWord) : decode (.command w) = .ok i ↔ w = v := by
  calc decode (.command w) = .ok i
      ↔ decodeCommand w = i := by rw [decode, Except.ok.injEq]
    _ ↔ encode i = .command w := decodeCommand_eq_iff wf w
    _ ↔ w = v := by rw [hv, Input.command.injEq, eq_comm]

/-- RDPIX's word ends in the 24 zeros of an absent pixel. -/
theorem commandWord_noPixel (op : BitVec 4) (idx : BitVec 16) :
    commandWord op idx noPixel = op ++ 0#20 ++ idx ++ 0#24 := by
  apply BitVec.eq_of_toNat_eq
  simp only [commandWord_toNat, noPixel, toNat_append_eq, BitVec.ofNat_eq_ofNat, BitVec.toNat_ofNat]
  omega

/-! ### One command at a time (R83 to R86, R88) -/

/-- Settles O17: the accepted TRANSMIT loads `R` whole and zeroes `BUF`; the refused one only raises its fault. -/
theorem transmitFollowsItsRule : Obligations.TransmitFollowsItsRule := by
  refine ⟨decode_command_eq_ok_iff rfl rfl, fun s idle => ?_, fun s busy => exec_transmit_busy busy⟩
  exact ⟨_, exec_transmit_idle idle, rfl, resetLeft_load_toNat s.cfg, zeroBuf_unit⟩

/-- A write inside the frame buffer changes the pixel it names and no other, at whatever number it is read (R48). -/
theorem State.pixel_writePixel_nat (s : State) {n : Nat} (h : n < s.fb.length) (p : Pixel) (i : Nat) :
    (s.writePixel n p).pixel i = if i = n then p else s.pixel i := by
  split_ifs with same
  · rw [same, State.pixel_writePixel_same h]
  · exact s.pixel_writePixel_other same p

/-- Settles O18: the bounds check comes first, then the busy check, and the write touches one pixel. -/
theorem wrpixFollowsItsRule : Obligations.WrpixFollowsItsRule := by
  refine ⟨fun w idx p => decode_command_eq_ok_iff rfl rfl w, fun s idx p out => exec_wrpix_bounds out p,
    fun s idx p inside busy => exec_wrpix_busy inside busy p, fun s idx p frame inside idle => ?_, fun s => ?_⟩
  · have listed : idx.toNat < s.fb.length := ((Memory.wf_iff _ _).1 frame).symm ▸ inside
    exact ⟨_, exec_wrpix_idle inside idle p, rfl, Memory.length_write .., s.pixel_writePixel_nat listed p⟩
  · exact Nat.le_succ_of_le (config_bounds s.cfg).2.1

/-- RDPIX's data is a zero byte before the pixel's three (R43, R64). -/
theorem pixelData_eq_append (p : Pixel) : pixelData p = 0x00#8 ++ p.r ++ p.g ++ p.b := by
  have := p.r.isLt; have := p.g.isLt; have := p.b.isLt
  apply BitVec.eq_of_toNat_eq
  simp only [pixelData, pixelWord, BitVec.toNat_setWidth, toNat_append_eq, BitVec.toNat_ofNat]
  omega

/-- Settles O19: a read in bounds answers the pixel, whether or not a transmission runs. -/
theorem rdpixFollowsItsRule : Obligations.RdpixFollowsItsRule := by
  refine ⟨fun w idx => decode_command_eq_ok_iff rfl ?_ w, fun s idx out => exec_rdpix_bounds out,
    fun s idx inside => ?_⟩
  · exact congrArg Input.command (commandWord_noPixel 0x3#4 idx)
  · rw [exec_rdpix_ok inside, pixelData_eq_append]
    rfl

/-- Settles O20: RDSTAT has one branch, which only answers. -/
theorem rdstatFollowsItsRule : Obligations.RdstatFollowsItsRule :=
  ⟨decode_command_eq_ok_iff rfl rfl, exec_rdstat⟩

/-- Settles O21: ILLEGAL has one branch, whatever the word. -/
theorem illegalFollowsItsRule : Obligations.IllegalFollowsItsRule := exec_illegal

/-! ### The order of the checks (R81) -/

/-- The independent check of R62 says which words the decoder calls ILLEGAL. -/
theorem isIllegalWord_iff_decodeCommand (w : CommandWord) : isIllegalWord w = true ↔ decodeCommand w = .illegal w :=
  (isIllegalWord_iff_reserved w).trans (decodeCommand_eq_illegal_iff_reserved w).symm

/-- Settles O22: by the command the word decodes to, and the first of its checks that fails. -/
theorem checksAreMadeInOrder : Obligations.ChecksAreMadeInOrder := by
  intro w s
  simp only [isIllegalWord_iff_decodeCommand]
  obtain ⟨h, op, -⟩ | ⟨h, op, -⟩ | ⟨h, op, -⟩ | ⟨h, op, -⟩ | h := decodeCommand_cases w <;> simp only [h]
  · obtain busy | idle := s.active.eq_false_or_eq_true
    · exact ⟨_, _, exec_transmit_busy busy, rfl, by simp [op, busy], by simp⟩
    · exact ⟨_, _, exec_transmit_idle idle, rfl, by simp [op, idle], by simp⟩
  · obtain out | inside := le_or_gt s.cfg.N (idxField w).toNat
    · exact ⟨_, _, exec_wrpix_bounds out _, rfl, by simp [op, out], by simp⟩
    obtain busy | idle := s.active.eq_false_or_eq_true
    · exact ⟨_, _, exec_wrpix_busy inside busy _, rfl, by simp [op, inside, busy], by simp⟩
    · exact ⟨_, _, exec_wrpix_idle inside idle _, rfl, by simp [op, inside, idle], by simp⟩
  · obtain out | inside := le_or_gt s.cfg.N (idxField w).toNat
    · exact ⟨_, _, exec_rdpix_bounds out, rfl, by simp [op, out], by simp⟩
    · exact ⟨_, _, exec_rdpix_ok inside, rfl, by simp [op, inside], by simp⟩
  · exact ⟨_, _, exec_rdstat s, rfl, by simp [op], by simp⟩
  · exact ⟨_, _, exec_illegal w s, rfl, by simp, by simp⟩

/-! ### Fault bits already set (R87) -/

/-- The state with other fault bits. -/
def State.withFaults (s : State) (illegalCmd startBusy fbWriteBusy underrun : Bool) : State :=
  { s with fIllegalCmd := illegalCmd, fStartBusy := startBusy, fFbWriteBusy := fbWriteBusy, fUnderrun := underrun }

/-- Two states are the same but for their fault bits. -/
def State.SameButFaults (t u : State) : Prop :=
  t = u.withFaults t.fIllegalCmd t.fStartBusy t.fFbWriteBusy t.fUnderrun

/-- EMIT reads no fault bit. -/
theorem State.sameButFaults_sendUnit (s : State) (a b c d : Bool) :
    s.sendUnit.SameButFaults (s.withFaults a b c d).sendUnit := by
  rw [State.sendUnit_eq, State.sendUnit_eq]
  rfl

/-- A refill neither reads nor writes a fault bit, in any of its four branches. -/
theorem State.refill_withFaults (s : State) (a b c d : Bool) (k : Half) :
    (s.withFaults a b c d).refill k = (s.refill k).withFaults a b c d := by
  simp only [State.refill, apply_ite (State.withFaults · a b c d)]
  cases k <;> rfl

/-- An instruction other than RDSTAT takes the same branch whatever fault bits are set, with the same effect. -/
theorem exec_withFaults {i : Instr} {s t : State} (hi : i ≠ .rdstat) (h : exec i s = .next t) (a b c d : Bool) :
    ∃ u : State, exec i (s.withFaults a b c d) = .next u ∧ t.SameButFaults u := by
  obtain ⟨rfl, busy, rfl⟩ | ⟨rfl, idle, rfl⟩ | ⟨idx, p, rfl, out, rfl⟩ | ⟨idx, p, rfl, inside, busy, rfl⟩ |
    ⟨idx, p, rfl, inside, idle, rfl⟩ | ⟨idx, rfl, out, rfl⟩ | ⟨idx, rfl, inside, rfl⟩ | ⟨rfl, -⟩ | ⟨w, rfl, rfl⟩ |
    ⟨rfl, busy, rfl⟩ | ⟨k, rfl, busy, pending, rfl⟩ | ⟨rfl, rfl⟩ := exec_next_cases h
  · exact ⟨_, exec_transmit_busy busy, rfl⟩
  · exact ⟨_, exec_transmit_idle idle, rfl⟩
  · exact ⟨_, exec_wrpix_bounds (s := s.withFaults a b c d) out p, rfl⟩
  · exact ⟨_, exec_wrpix_busy (s := s.withFaults a b c d) inside busy p, rfl⟩
  · exact ⟨_, exec_wrpix_idle (s := s.withFaults a b c d) inside idle p, rfl⟩
  · exact ⟨_, exec_rdpix_bounds out, rfl⟩
  · exact ⟨_, exec_rdpix_ok inside, rfl⟩
  · exact absurd rfl hi
  · exact ⟨_, exec_illegal .., rfl⟩
  · exact ⟨_, exec_emit_next_iff.2 ⟨busy, rfl⟩, s.sameButFaults_sendUnit a b c d⟩
  · have pending' : (s.withFaults a b c d).pending k = true := by cases k <;> exact pending
    refine ⟨_, (exec_refill_next_iff k).2 ⟨⟨busy, pending'⟩, rfl⟩, ?_⟩
    rw [State.refill_withFaults]
    rfl
  · exact ⟨_, exec_reset _, rfl⟩

/-- Settles O46: the two runs take the same branch. -/
theorem setFaultBitsChangeNoEffect : Obligations.SetFaultBitsChangeNoEffect := fun _ _ _ a b c d hi h =>
  exec_withFaults hi h a b c d

end Sys2Proof.Machine
end

section
/-! SUPPORT. Stream engine: the encoding of a pixel (R100), EMIT (R103), the refills and STOP (R104 to R106), the phase
(R101), the choice between two pending events (R114), and how long one may wait (R168). -/

namespace Sys2Proof

/-! ### The codes (R9) -/

/-- A pulse's length can be read off the unit. -/
theorem pulse_inj {k l : Nat} (hk : k ≤ 7) (hl : l ≤ 7) (h : pulse k = pulse l) : k = l := by
  have bits (i : Fin 8) : i.val < k ↔ i.val < l := by
    have bit := pulse_getLsbD (k := k) (by omega) i
    rw [h, pulse_getLsbD (by omega)] at bit
    exact (decide_eq_decide.1 bit).symm
  have atK := bits ⟨k, by omega⟩
  have atL := bits ⟨l, by omega⟩
  dsimp only at atK atL
  omega

/-- The three units of R66 are different. -/
theorem Config.codes_ne (c : Config) : c.CODE0 ≠ c.CODE1 ∧ z0 ≠ c.CODE0 ∧ z0 ≠ c.CODE1 := by
  obtain ⟨-, -, k0, k1, h0, h01, h1, hc0, hc1⟩ := c.toParams.wf_iff.1 c.ok
  rw [hc0, hc1, z0_eq_pulse]
  refine ⟨fun h => ?_, fun h => ?_, fun h => ?_⟩
  all_goals
    have := pulse_inj (by omega) (by omega) h
    omega

end Sys2Proof

namespace Sys2Proof.Machine

/-! ### The encoding of a pixel (R100) -/

/-- The eight units of one channel, most significant bit first (R44, R67). -/
def channelUnits (c : Config) (x : Channel) : List TxUnit :=
  (List.finRange 8).map fun i => if x.getLsbD (7 - i.val) then c.CODE1 else c.CODE0

@[simp] theorem length_channelUnits (c : Config) (x : Channel) : (channelUnits c x).length = 8 := by
  simp [channelUnits]

/-- A pixel is sent green, then red, then blue (R67). -/
theorem enc_toList (c : Config) (p : Pixel) :
    (enc c p).toList = channelUnits c p.g ++ channelUnits c p.r ++ channelUnits c p.b := by
  refine List.ext_getElem (by simp) fun u hu _ => ?_
  have hu : u < 24 := by simpa using hu
  rw [Vector.getElem_toList, enc_getElem]
  have byte : u / 8 = 0 ∧ u % 8 = u ∨ u / 8 = 1 ∧ u % 8 = u - 8 ∨ u / 8 = 2 ∧ u % 8 = u - 16 := by omega
  obtain ⟨hq, hr⟩ | ⟨hq, hr⟩ | ⟨hq, hr⟩ := byte
  · have green : u < 8 := by omega
    simp [unitBit, unitChannel, channelUnits, hq, hr, green]
  · have red : ¬u < 8 ∧ u - 8 < 8 := by omega
    simp [unitBit, unitChannel, channelUnits, List.getElem_append, hq, hr, red]
  · have blue : ¬u < 8 ∧ ¬u - 8 < 8 := by omega
    simp [unitBit, unitChannel, channelUnits, List.getElem_append, hq, hr, blue, Nat.sub_sub]

/-- A channel of zeros is eight times `CODE0`, one of ones eight times `CODE1`. -/
theorem channelUnits_zero (c : Config) : channelUnits c 0 = List.replicate 8 c.CODE0 := rfl

theorem channelUnits_ones (c : Config) : channelUnits c 255 = List.replicate 8 c.CODE1 := rfl

/-- The two codes differ, so that a channel's units determine its bits. -/
theorem channelUnits_inj {c : Config} {x y : Channel} (h : channelUnits c x = channelUnits c y) : x = y := by
  refine BitVec.eq_of_getLsbD_eq fun j hj => ?_
  have unit := List.map_inj_left.1 h ⟨7 - j, by omega⟩ (List.mem_finRange _)
  have index : 7 - (7 - j) = j := by omega
  simp only [index] at unit
  have ne := c.codes_ne.1
  cases hx : x.getLsbD j <;> cases hy : y.getLsbD j
  · rfl
  · simp [hx, hy, ne] at unit
  · simp [hx, hy, ne.symm] at unit
  · rfl

/-- A pixel can be read back from its units (R100). -/
theorem enc_inj {c : Config} {p q : Pixel} (h : enc c p = enc c q) : p = q := by
  have units := congrArg Vector.toList h
  rw [enc_toList, enc_toList] at units
  obtain ⟨gr, b⟩ := List.append_inj units (by simp)
  obtain ⟨g, r⟩ := List.append_inj gr (by simp)
  rw [Pixel.mk.injEq]
  exact ⟨channelUnits_inj r, channelUnits_inj g, channelUnits_inj b⟩

/-- No pixel is sent as a zero unit (R100). -/
theorem z0_not_mem_enc (c : Config) (p : Pixel) : z0 ∉ enc c p := by
  intro h
  obtain ⟨u, hu, hz⟩ := Vector.getElem_of_mem h
  obtain ⟨-, ne0, ne1⟩ := c.codes_ne
  rw [enc_getElem] at hz
  split_ifs at hz
  · exact ne1 hz.symm
  · exact ne0 hz.symm

/-- Settles O10: three channels, each of which can be read back, none of whose units is zero. -/
theorem pixelEncodingIsFaithful : Obligations.PixelEncodingIsFaithful := by
  refine fun c => ⟨⟨?_, ?_⟩, fun _ _ => enc_inj, z0_not_mem_enc c, ?_⟩
  · rw [← Vector.toList_inj, enc_toList, channelUnits_zero]
    rfl
  · rw [← Vector.toList_inj, enc_toList, channelUnits_ones]
    rfl
  · rw [enc_toList, channelUnits_zero, channelUnits_ones]

/-! ### EMIT (R103) -/

theorem exec_emit_busy {s : State} (busy : s.active = true) : exec .emit s = .next s.sendUnit :=
  exec_emit_next_iff.2 ⟨busy, rfl⟩

theorem exec_emit_idle {s : State} (idle : s.active = false) : exec .emit s = .fault .serDisabled := by
  simp [exec, execEmit, idle]

/-- Settles O27: the one branch of EMIT, and its `require`. -/
theorem emitFollowsItsRule : Obligations.EmitFollowsItsRule := by
  refine ⟨fun s busy => ?_, fun s idle => exec_emit_idle idle⟩
  rw [exec_emit_busy busy, State.sendUnit_eq]
  rfl

/-! ### A refill's branches (R104 to R106) -/

theorem exec_refill_pending {s : State} {k : Half} (busy : s.active = true) (pending : s.pending k = true) :
    exec (refillInstr k) s = .next (s.refill k) :=
  (exec_refill_next_iff k).2 ⟨⟨busy, pending⟩, rfl⟩

/-- Servicing an event clears its flag and leaves the other's (R27). -/
theorem State.setPending_false (s : State) (k : Half) :
    s.setPending k false =
      { s with pendHt := s.pendHt && decide (k ≠ .first), pendTc := s.pendTc && decide (k ≠ .second) } := by
  cases k <;> simp [State.setPending]

/-- A half rewritten with zero units. -/
theorem Buf.unit_writeHalf_zero (b : Buf) (k : Half) (j : Fin 48) :
    (b.writeHalf k zeroHalf).unit j = if k.holds j then 0x00#8 else b.unit j := by
  rw [Buf.unit_writeHalf]
  split_ifs
  · exact zeroHalf_getElem ..
  · rfl

/-- A half rewritten with a pixel's units. -/
theorem Buf.unit_writeHalf_enc (b : Buf) (k : Half) (c : Config) (p : Pixel) (j : Fin 48) :
    (b.writeHalf k (enc c p)).unit j =
      if k.holds j then (if unitBit p (j.val - k.base) then c.CODE1 else c.CODE0) else b.unit j := by
  rw [Buf.unit_writeHalf]
  split_ifs with held
  · exact (enc_getElem ..).trans (if_pos ‹_›)
  · exact (enc_getElem ..).trans (if_neg ‹_›)
  · rfl

/-- Settles O28: one refill at a time in the three branches that rewrite the half. -/
theorem refillRewritesItsHalf : Obligations.RefillRewritesItsHalf := by
  intro s k busy pending goesOn
  refine ⟨s.refill k, exec_refill_pending busy pending, ?_⟩
  obtain ⟨left, h⟩ | ⟨left, led, h⟩ | ⟨left, led, h⟩ | ⟨left, led, h⟩ := s.refill_cases k
  · have notZero : s.resetLeft.toNat ≠ 0 := by omega
    rw [h, State.setPending_false]
    exact ⟨rfl, fun _ => ⟨resetLeft_pred_toNat left, rfl, s.buf.unit_writeHalf_zero k⟩,
      fun zero => absurd zero notZero, fun zero => absurd zero notZero⟩
  · rw [h, State.setPending_false]
    exact ⟨rfl, fun pos => absurd left pos.ne',
      fun _ _ => ⟨rfl, ledIndex_succ_toNat led.le, s.buf.unit_writeHalf_enc k s.cfg _⟩, fun _ eq => absurd eq led.ne⟩
  · rw [h, State.setPending_false]
    exact ⟨rfl, fun pos => absurd left pos.ne', fun _ lt => absurd led lt.ne,
      fun _ _ => ⟨rfl, ledIndex_past_toNat s.cfg, s.buf.unit_writeHalf_zero k⟩⟩
  · omega

/-- With nothing left to send, a refill of either half is the STOP (R106). -/
theorem State.refill_eq_stop {s : State} (left : s.resetLeft.toNat = 0) (led : s.cfg.N < s.ledIndex.toNat) (k : Half) :
    s.refill k = s.stop := by
  obtain ⟨left', -⟩ | ⟨-, led', -⟩ | ⟨-, led', -⟩ | ⟨-, -, h⟩ := s.refill_cases k
  · omega
  · omega
  · omega
  · exact h

/-- Settles O29: the STOP, after which no `require` of an own action holds. -/
theorem stopEndsTheTransmission : Obligations.StopEndsTheTransmission := by
  intro s k busy pending left led
  have stops := exec_refill_pending busy pending
  rw [State.refill_eq_stop left led] at stops
  exact ⟨s.stop, stops, rfl, exec_emit_idle rfl, exec_refillHt_disabled (by simp), exec_refillTc_disabled (by simp),
    fun _ => rfl⟩

/-- Settles O31: each refill asks for its own event alone, and `Inv` bounds the events of a fault-free state. -/
theorem eitherPendingEventMayBeServiced : Obligations.EitherPendingEventMayBeServiced := by
  refine ⟨fun s busy ht tc => ?_, fun s hs clean => (hs.2 clean).oneEvent⟩
  refine ⟨_, _, exec_refill_pending (k := .first) busy ht, exec_refill_pending (k := .second) busy tc, ?_, ?_⟩
  · simp [State.refill_pendHt busy]
  · simp [State.refill_pendTc busy]

/-! ### The phase (R101) -/

theorem State.phase_of_idle {s : State} (idle : s.active = false) : s.phase = .idle := if_pos idle

theorem State.phase_of_busy {s : State} (busy : s.active = true) :
    s.phase = if 0 < s.resetLeft.toNat then .reset else .encoding := by
  simp [State.phase, busy]

theorem State.phase_eq_idle_iff (s : State) : s.phase = .idle ↔ s.active = false := by
  obtain ⟨-, -, idle, -⟩ := outputsAndPhaseFollowTheState s
  exact idle

/-- A refill counts the reset phase down, or encodes, or stops (R101). -/
theorem State.refill_phase {s : State} (busy : s.active = true) (k : Half) :
    (s.refill k).phase =
      if s.phase = .reset then (if 1 < s.resetLeft.toNat then .reset else .encoding)
      else if s.ledIndex.toNat ≤ s.cfg.N then .encoding else .idle := by
  obtain ⟨left, h⟩ | ⟨left, led, h⟩ | ⟨left, led, h⟩ | ⟨left, led, h⟩ := s.refill_cases k
  · have down : (s.resetLeft - 1).toNat = s.resetLeft.toNat - 1 := resetLeft_pred_toNat left
    rw [h, State.phase_of_busy (by simpa using busy), s.phase_of_busy busy]
    simp only [down, left, Nat.sub_pos_iff_lt, if_true]
  · rw [h, State.phase_of_busy (by simpa using busy), s.phase_of_busy busy]
    simp [left, led.le]
  · rw [h, State.phase_of_busy (by simpa using busy), s.phase_of_busy busy]
    simp [left, led.le]
  · rw [h, State.phase_of_idle s.stop_active, s.phase_of_busy busy]
    simp [left, led]

/-- Settles O33: by the way the instruction completes. -/
theorem phaseTransitionsFollowTheTable : Obligations.PhaseTransitionsFollowTheTable := by
  intro i s t h
  refine ⟨?_, ?_⟩
  · rintro rfl notIdle
    have busy : s.active = true := by simpa [s.phase_eq_idle_iff] using notIdle
    rw [exec_transmit_busy busy] at h
    cases h
    simp
  cases exec_completes h with
  | passive hi same => cases hi <;> exact State.phase_congr same.active same.resetLeft
  | refusedStart busy same =>
    have notIdle : s.phase ≠ .idle := by simp [s.phase_eq_idle_iff, busy]
    exact (State.phase_congr same.active same.resetLeft).trans (if_neg notIdle).symm
  | start idle =>
    rw [s.phase_of_idle idle, State.phase_of_busy (by simp)]
    simp only [State.respond_resetLeft, State.record_resetLeft, State.startTransmission_resetLeft, resetLeft_load_toNat]
    rfl
  | emit => exact State.phase_congr (by simp) (by simp)
  | refill k busy => cases k <;> exact State.refill_phase busy _
  | reset => exact State.phase_of_idle rfl

/-! ### How long an event may wait (R168) -/

/-- EMIT in a row, as a function of the state. -/
theorem execAll_replicate_emit {s : State} (busy : s.active = true) (n : Nat) :
    execAll (List.replicate n .emit) s = .next (State.sendUnit^[n] s) ∧ (State.sendUnit^[n] s).active = true := by
  induction n generalizing s with
  | zero => exact ⟨rfl, busy⟩
  | succ n ih =>
    obtain ⟨run, active⟩ := ih (s := s.sendUnit) (by simpa using busy)
    exact ⟨execAll_cons_next_iff.2 ⟨_, exec_emit_busy busy, run⟩, active⟩

/-- EMITs that do not end a half move the read position alone of what an EMIT reads. -/
theorem State.sendUnit_iterate_inside (s : State) {n : Nat}
    (inside : s.rp.val + n ≤ 23 ∨ 24 ≤ s.rp.val ∧ s.rp.val + n ≤ 47) :
    (State.sendUnit^[n] s).rp.val = s.rp.val + n ∧ (State.sendUnit^[n] s).pendHt = s.pendHt ∧
      (State.sendUnit^[n] s).pendTc = s.pendTc ∧ (State.sendUnit^[n] s).fUnderrun = s.fUnderrun := by
  induction n with
  | zero => exact ⟨rfl, rfl, rfl, rfl⟩
  | succ n ih =>
    obtain ⟨rp, ht, tc, underrun⟩ := ih (by omega)
    have not23 : s.rp.val + n ≠ 23 := by omega
    have not47 : s.rp.val + n ≠ 47 := by omega
    rw [Function.iterate_succ_apply', State.sendUnit_eq]
    simp only [rp, ht, tc, underrun, not23, not47, nextRp_val, decide_false, Bool.or_false, or_self, Bool.false_and,
      and_true]
    omega

/-- Settles O32: 23 EMITs stay inside the other half, and the 24th ends it with the event still pending. -/
theorem refillDeadlineIsTwentyThreeUnits : Obligations.RefillDeadlineIsTwentyThreeUnits := by
  intro s n busy clean event hn
  obtain ⟨run, active⟩ := execAll_replicate_emit busy n
  refine ⟨_, run, active, ?_⟩
  obtain hlt | rfl := Nat.lt_or_eq_of_le hn
  · obtain ⟨-, -, -, underrun⟩ := s.sendUnit_iterate_inside (n := n) (by omega)
    simp [underrun, clean, hlt.ne]
  · obtain ⟨rp, ht, tc, -⟩ := s.sendUnit_iterate_inside (n := 23) (by omega)
    have ends : (State.sendUnit^[23] s).rp.val = 23 ∨ (State.sendUnit^[23] s).rp.val = 47 := by omega
    have waits : (s.pendHt || s.pendTc) = true := by
      obtain ⟨-, pending, -⟩ | ⟨-, pending, -⟩ := event <;> simp [pending]
    rw [Function.iterate_succ_apply', State.sendUnit_eq, ht, tc]
    simp only [ends, waits, decide_true, Bool.and_self, Bool.or_true]

end Sys2Proof.Machine
end

section
/-! SUPPORT. The stream contract (R110, R111): the stream as 24-unit halves, what holds at every point of a fault-free
transmission after so many EMITs and refills, and a schedule that completes one. -/

namespace Sys2Proof.Machine

/-! ### The stream, half by half (R110) -/

/-- The halves of a stream up to the phantom units: two at TRANSMIT and `R` refills of zeros, then one half a pixel. -/
def streamHalves (c : Config) (fb : Memory) : List HalfUnits :=
  List.replicate (c.R + 2) zeroHalf ++ fb.map (enc c)

/-- The half that stands at place `b` of the stream, a phantom half past its end. -/
def streamHalf (c : Config) (fb : Memory) (b : Nat) : HalfUnits := (streamHalves c fb).getD b zeroHalf

/-- The unit that the EMIT of number `n` sends, counted from 0. -/
def streamUnit (c : Config) (fb : Memory) (n : Nat) : TxUnit :=
  (streamHalf c fb (n / 24))[n % 24]'(Nat.mod_lt _ (by decide))

theorem length_streamHalves (c : Config) (fb : Memory) : (streamHalves c fb).length = c.R + 2 + fb.length := by
  simp [streamHalves]

theorem streamHalf_reset {c : Config} {b : Nat} (h : b < c.R + 2) (fb : Memory) : streamHalf c fb b = zeroHalf := by
  simp [streamHalf, streamHalves, List.getElem?_append, h]

theorem streamHalf_pixel {fb : Memory} {i : Nat} (h : i < fb.length) (c : Config) :
    streamHalf c fb (c.R + 2 + i) = enc c fb[i] := by
  simp [streamHalf, streamHalves, h]

theorem streamHalf_phantom {c : Config} {fb : Memory} {b : Nat} (h : c.R + 2 + fb.length ≤ b) :
    streamHalf c fb b = zeroHalf := by
  rw [streamHalf, List.getD_eq_default _ _ (by rwa [length_streamHalves])]

theorem streamUnit_eq_z0 {c : Config} {fb : Memory} {n : Nat} (h : streamHalf c fb (n / 24) = zeroHalf) :
    streamUnit c fb n = z0 := by
  simp only [streamUnit, h, zeroHalf_getElem]

/-- Sending halves unit by unit is sending each half whole. -/
theorem map_range_unit_eq_flatMap (f : Nat → HalfUnits) (k : Nat) :
    (List.range (24 * k)).map (fun n => (f (n / 24))[n % 24]'(Nat.mod_lt _ (by decide))) =
      (List.range k).flatMap fun b => (f b).toList := by
  induction k with
  | zero => rfl
  | succ k ih =>
    rw [Nat.mul_succ, List.range_add, List.map_append, ih, List.range_succ (n := k), List.flatMap_append]
    congr 1
    refine List.ext_getElem (by simp) fun u hu _ => ?_
    have hu : u < 24 := by simpa using hu
    have place : (24 * k + u) / 24 = k ∧ (24 * k + u) % 24 = u := by omega
    simp [place]

/-- R110's stream is the first units of this one. -/
theorem streamUnits_eq_map_range {c : Config} {fb : Memory} (frame : fb.length = c.N) (j : Nat) :
    streamUnits c fb j = (List.range (24 * (c.R + 2 + c.N) + j)).map (streamUnit c fb) := by
  have halves : (List.range (c.R + 2 + c.N)).map (streamHalf c fb) = streamHalves c fb := by
    refine List.ext_getElem (by simp [length_streamHalves, frame]) fun b _ hb => ?_
    rw [List.getElem_map, List.getElem_range, streamHalf, List.getD_eq_getElem _ _ hb]
  have sent : (List.range (24 * (c.R + 2 + c.N))).map (streamUnit c fb) =
      List.replicate c.resetUnits z0 ++ fb.flatMap fun p => (enc c p).toList := by
    have zeros : (c.R + 2) * 24 = c.resetUnits := by unfold Params.resetUnits; omega
    calc (List.range (24 * (c.R + 2 + c.N))).map (streamUnit c fb)
        = (List.range (c.R + 2 + c.N)).flatMap fun b => (streamHalf c fb b).toList :=
          map_range_unit_eq_flatMap (streamHalf c fb) _
      _ = (streamHalves c fb).flatMap Vector.toList := by rw [← halves, List.flatMap_map]
      _ = _ := by
        rw [streamHalves, List.flatMap_append, List.flatMap_map, List.flatMap_replicate, zeroHalf,
          Vector.toList_replicate, List.flatten_replicate_replicate, zeros]
  have phantoms : (List.range j).map (fun n => streamUnit c fb (24 * (c.R + 2 + c.N) + n)) = List.replicate j z0 := by
    refine List.eq_replicate_iff.2 ⟨by simp, fun u hu => ?_⟩
    obtain ⟨n, -, rfl⟩ := List.mem_map.1 hu
    exact streamUnit_eq_z0 (streamHalf_phantom (by omega))
  rw [streamUnits, List.range_add, List.map_append, List.map_map, ← sent, ← phantoms]
  rfl

/-! ### The halves in turn -/

/-- The half that refill `m` services, counted from 0: HT and TC alternate, HT first. -/
def turnHalf (m : Nat) : Half := if m % 2 = 0 then .first else .second

/-- Refill `m` of a fault-free transmission. -/
def refillAt (m : Nat) : Instr := refillInstr (turnHalf m)

/-- Where unit `n` of the stream stands in `BUF`. -/
def bufPlace (n : Nat) : Fin 48 := ⟨n % 48, Nat.mod_lt _ (by decide)⟩

theorem refillAt_eq (m : Nat) : refillAt m = if m % 2 = 0 then .refillHt else .refillTc := by
  unfold refillAt turnHalf
  split_ifs <;> rfl

theorem base_turnHalf (m : Nat) : (turnHalf m).base = 24 * (m % 2) := by
  unfold turnHalf
  split_ifs <;> simp only [Half.base] <;> omega

theorem Half.base_inj {k l : Half} : k.base = l.base ↔ k = l := by
  cases k <;> cases l <;> simp [Half.base]

theorem eq_turnHalf_iff {k : Half} {m : Nat} : k = turnHalf m ↔ k.base = 24 * (m % 2) := by
  rw [← Half.base_inj, base_turnHalf]

theorem Half.holds_iff (k : Half) (j : Fin 48) : k.holds j = true ↔ k.base ≤ j.val ∧ j.val < k.base + 24 :=
  decide_eq_true_iff

/-- Rewriting the half of turn `m` reaches the stream's units of the places of `m`'s parity. -/
theorem Buf.unit_writeHalf_turnHalf (b : Buf) (m n : Nat) (us : HalfUnits) :
    (b.writeHalf (turnHalf m) us).unit (bufPlace n) =
      if n / 24 % 2 = m % 2 then us[n % 24]'(Nat.mod_lt _ (by decide)) else b.unit (bufPlace n) := by
  have base := base_turnHalf m
  have held : (turnHalf m).holds (bufPlace n) = true ↔ n / 24 % 2 = m % 2 := by
    rw [Half.holds_iff, bufPlace]
    dsimp only
    omega
  rw [Buf.unit_writeHalf]
  by_cases parity : n / 24 % 2 = m % 2
  · have place : n % 48 - (turnHalf m).base = n % 24 := by omega
    rw [dif_pos (held.2 parity), if_pos parity]
    simp only [bufPlace, place]
  · rw [dif_neg (mt held.1 parity), if_neg parity]

/-! ### The events and the fault bits under EMIT and the refills -/

/-- EMIT raises the event of the half it ends (R103). -/
theorem State.sendUnit_pending (s : State) (k : Half) :
    s.sendUnit.pending k = (s.pending k || decide (s.rp.val = k.base + 23)) := by
  cases k
  · exact s.sendUnit_pendHt
  · exact s.sendUnit_pendTc

/-- A refill clears its own event, and all of them if it stops (R104, R106). -/
theorem State.refill_pending {s : State} (busy : s.active = true) (k l : Half) :
    (s.refill k).pending l = (s.pending l && decide (k ≠ l) && (s.refill k).active) := by
  cases l
  · exact State.refill_pendHt busy k
  · exact State.refill_pendTc busy k

theorem State.pendHt_or_pendTc (s : State) : (s.pendHt || s.pendTc) = true ↔ ∃ k, s.pending k = true := by
  rw [Bool.or_eq_true]
  constructor
  · rintro (ht | tc)
    · exact ⟨.first, ht⟩
    · exact ⟨.second, tc⟩
  · rintro ⟨k | k, h⟩
    · exact .inl h
    · exact .inr h

theorem State.refill_noFault (s : State) (k : Half) : (s.refill k).noFault = s.noFault := by
  rw [Bool.eq_iff_iff, State.noFault_iff, State.noFault_iff]
  simp only [State.refill_hasFault]

/-- EMIT adds no fault unless it ends a half with an event pending (R103, R135). -/
theorem State.sendUnit_noFault {s : State} (clean : s.noFault = true) :
    s.sendUnit.noFault = true ↔ ¬((s.rp.val = 23 ∨ s.rp.val = 47) ∧ ∃ k, s.pending k = true) := by
  rw [State.noFault_iff] at clean ⊢
  simp only [State.sendUnit_hasFault, clean, ← State.pendHt_or_pendTc, Bool.false_or]
  constructor
  · rintro none ⟨ends, waits⟩
    simpa [ends, waits] using none .underrun
  · intro h f
    by_cases ends : s.rp.val = 23 ∨ s.rp.val = 47
    · simp [mt (And.intro ends) h]
    · simp [ends]

/-! ### A fault-free transmission after so many EMITs and refills -/

/-- The state `v` of a fault-free transmission of `fb`, started when WIRE was `w`, after `sent` EMITs and `served`
refills: the counters, the read position and WIRE are as those numbers say, `BUF` holds the two halves of the stream
from place `served` on, and the next refill's event is pending once SER has sent the half it rewrites. -/
structure Sending (c : Config) (fb : Memory) (w : List Record) (sent served : Nat) (v : State) : Prop where
  cfg : v.cfg = c
  fbKept : v.fb = fb
  frame : fb.length = c.N
  busy : v.active = true
  clean : v.noFault = true
  resetLeft : v.resetLeft.toNat = c.R - served
  ledIndex : v.ledIndex.toNat = served - c.R
  goesOn : served ≤ c.R + c.N + 1
  rp : v.rp = bufPlace sent
  wire : v.wire = w ++ .start :: ((List.range sent).map (streamUnit c fb)).map .unit
  notBehind : 24 * served ≤ sent
  notAhead : sent < 24 * (served + 2)
  pending : ∀ k, v.pending k = true ↔ 24 * (served + 1) ≤ sent ∧ k = turnHalf served
  buf : ∀ n, served ≤ n / 24 → n / 24 ≤ served + 1 → v.buf.unit (bufPlace n) = streamUnit c fb n

/-- An accepted TRANSMIT begins a transmission with the two zero halves in `BUF` (R83). -/
theorem Sending.start {s : State} (frame : Memory.wf s.cfg.N s.fb = true) (clean : s.noFault = true) :
    Sending s.cfg s.fb s.wire 0 0 ((s.startTransmission.record .start).respond .ok 0) where
  cfg := rfl
  fbKept := rfl
  frame := (Memory.wf_iff ..).1 frame
  busy := rfl
  clean := clean
  resetLeft := resetLeft_load_toNat s.cfg
  ledIndex := (Nat.zero_sub _).symm
  goesOn := Nat.zero_le _
  rp := rfl
  wire := rfl
  notBehind := le_rfl
  notAhead := by decide
  pending k := by cases k <;> simp [State.pending]
  buf n _ hn := (zeroBuf_unit _).trans (streamUnit_eq_z0 (streamHalf_reset (by omega) _)).symm

section
variable {c : Config} {fb : Memory} {w : List Record} {sent served : Nat} {v : State}

/-- A command that leaves the stream, the frame buffer and the fault bits alone leaves the transmission where it is. -/
theorem Sending.passive {v' : State} (h : Sending c fb w sent served v) (same : v.SameStream v') (hfb : v'.fb = v.fb)
    (clean : v'.noFault = true) : Sending c fb w sent served v' where
  cfg := same.cfg.trans h.cfg
  fbKept := hfb.trans h.fbKept
  frame := h.frame
  busy := same.active.trans h.busy
  clean := clean
  resetLeft := by rw [same.resetLeft, h.resetLeft]
  ledIndex := by rw [same.ledIndex, h.ledIndex]
  goesOn := h.goesOn
  rp := same.rp.trans h.rp
  wire := same.wire.trans h.wire
  notBehind := h.notBehind
  notAhead := h.notAhead
  pending k := by
    rw [← h.pending k]
    cases k
    · simp only [State.pending, same.pendHt]
    · simp only [State.pending, same.pendTc]
  buf := by rw [same.buf]; exact h.buf

/-- An event is pending exactly while the next refill is due. -/
theorem Sending.waits_iff (h : Sending c fb w sent served v) :
    (∃ k, v.pending k = true) ↔ 24 * (served + 1) ≤ sent := by
  simp only [h.pending, exists_and_left, exists_eq, and_true]

/-- An EMIT raises no fault exactly if it does not run into the half that the next refill is to write. -/
theorem Sending.sendUnit_clean_iff (h : Sending c fb w sent served v) :
    v.sendUnit.noFault = true ↔ sent + 1 < 24 * (served + 2) := by
  have behind := h.notBehind
  have ahead := h.notAhead
  rw [State.sendUnit_noFault h.clean, h.waits_iff, h.rp]
  simp only [bufPlace]
  omega

/-- One EMIT (R103): it sends the next unit of the stream, and raises the next refill's event as it ends a half. -/
theorem Sending.sendUnit (h : Sending c fb w sent served v) (room : sent + 1 < 24 * (served + 2)) :
    Sending c fb w (sent + 1) served v.sendUnit where
  cfg := v.sendUnit_cfg.trans h.cfg
  fbKept := v.sendUnit_fb.trans h.fbKept
  frame := h.frame
  busy := v.sendUnit_active.trans h.busy
  clean := h.sendUnit_clean_iff.2 room
  resetLeft := by rw [State.sendUnit_resetLeft, h.resetLeft]
  ledIndex := by rw [State.sendUnit_ledIndex, h.ledIndex]
  goesOn := h.goesOn
  rp := by
    rw [State.sendUnit_rp, h.rp, Fin.ext_iff]
    simp only [nextRp_val, bufPlace]
    omega
  wire := by
    have behind := h.notBehind
    have ahead := h.notAhead
    rw [State.sendUnit_wire, h.wire, h.rp, h.buf sent (by omega) (by omega), List.range_succ]
    simp
  notBehind := h.notBehind.trans (Nat.le_succ _)
  notAhead := room
  pending k := by
    have behind := h.notBehind
    have base : k.base = 0 ∨ k.base = 24 := by cases k <;> simp [Half.base]
    rw [State.sendUnit_pending, Bool.or_eq_true, decide_eq_true_eq, h.pending, h.rp, eq_turnHalf_iff]
    simp only [bufPlace]
    omega
  buf := by rw [State.sendUnit_buf]; exact h.buf

/-- A refill that goes on writes the stream's next half: a zero one, a pixel's or the phantom one (R104, R105). -/
theorem Sending.refill_buf (h : Sending c fb w sent served v) (more : served ≤ c.R + c.N) (k : Half) :
    (v.refill k).buf = v.buf.writeHalf k (streamHalf c fb (served + 2)) := by
  have hleft := h.resetLeft
  have hled := h.ledIndex
  have hframe := h.frame
  have hcfg := h.cfg
  obtain ⟨left, eq⟩ | ⟨left, led, eq⟩ | ⟨left, led, eq⟩ | ⟨left, led, eq⟩ := v.refill_cases k
  · rw [eq, streamHalf_reset (by omega)]
  · rw [hcfg] at led
    have listed : served - c.R < v.fb.length := by rw [h.fbKept]; omega
    have place : served + 2 = c.R + 2 + (served - c.R) := by omega
    rw [eq, place, ← h.fbKept, streamHalf_pixel listed, hled, v.pixel_eq_getElem listed, hcfg]
  · rw [hcfg] at led
    rw [eq, streamHalf_phantom (by omega)]
  · rw [hcfg] at led
    omega

/-- A refill that goes on moves one counter: `reset_left` down to 0, then `led_index` up (R23, R24). -/
theorem Sending.refill_counters (h : Sending c fb w sent served v) (more : served ≤ c.R + c.N) (k : Half) :
    (v.refill k).resetLeft.toNat = c.R - (served + 1) ∧ (v.refill k).ledIndex.toNat = served + 1 - c.R := by
  have hleft := h.resetLeft
  have hled := h.ledIndex
  have counters := State.refill_counters (s := v) (by rw [h.cfg]; omega) k
  rw [h.cfg] at counters
  split_ifs at counters <;> obtain ⟨led, left⟩ := counters
  · rw [led]
    omega
  · rw [left]
    omega
  · omega

/-- One refill that goes on (R104, R105): it services its event, rewrites its half and moves one of the counters. -/
theorem Sending.refill (h : Sending c fb w sent served v) (due : 24 * (served + 1) ≤ sent)
    (more : served ≤ c.R + c.N) : Sending c fb w sent (served + 1) (v.refill (turnHalf served)) := by
  have ahead := h.notAhead
  obtain ⟨hcfg, hrp, hfb, hwire⟩ := v.refill_frame (turnHalf served)
  obtain ⟨left, led⟩ := h.refill_counters more (turnHalf served)
  have running : (v.refill (turnHalf served)).active = true := by
    rw [← Bool.not_eq_false, State.refill_active_eq_false_iff h.busy, h.cfg, h.ledIndex]
    omega
  exact {
    cfg := hcfg.trans h.cfg
    fbKept := hfb.trans h.fbKept
    frame := h.frame
    busy := running
    clean := (v.refill_noFault _).trans h.clean
    resetLeft := left
    ledIndex := led
    goesOn := Nat.succ_le_succ more
    rp := hrp.trans h.rp
    wire := hwire.trans h.wire
    notBehind := due
    notAhead := by omega
    pending := fun k => by
      rw [State.refill_pending h.busy, running, Bool.and_true, Bool.and_eq_true, decide_eq_true_eq, h.pending]
      constructor
      · rintro ⟨⟨-, own⟩, other⟩
        exact absurd own.symm other
      · rintro ⟨early, -⟩
        omega
    buf := fun n from_served to_served => by
      rw [h.refill_buf more, Buf.unit_writeHalf_turnHalf]
      split_ifs with parity
      · have place : n / 24 = served + 2 := by omega
        simp only [streamUnit, place]
      · exact h.buf n (by omega) (by omega) }

/-- Every way a step other than TRANSMIT and RESET can go on without a fault. -/
theorem Sending.step {i : Instr} {v' : State} (h : Sending c fb w sent served v) (run : exec i v = .next v')
    (notStart : i ≠ .transmit) (notReset : i ≠ .reset) (running : v'.active = true) (clean : v'.noFault = true) :
    (PassiveCommand i ∧ Sending c fb w sent served v') ∨ (i = .emit ∧ Sending c fb w (sent + 1) served v') ∨
      (i = refillAt served ∧ Sending c fb w sent (served + 1) v') := by
  have hfb := exec_fb_of_busy run h.busy notReset clean
  cases exec_completes run with
  | passive hi same => exact .inl ⟨hi, h.passive same hfb clean⟩
  | refusedStart | start => exact absurd rfl notStart
  | emit => exact .inr (.inl ⟨rfl, h.sendUnit (h.sendUnit_clean_iff.1 clean)⟩)
  | refill k busy =>
    obtain ⟨⟨-, pending⟩, -⟩ := (exec_refill_next_iff k).1 run
    obtain ⟨due, rfl⟩ := (h.pending k).1 pending
    have notStop := (State.refill_active_eq_false_iff busy (turnHalf served)).not.1 (by simp [running])
    rw [h.resetLeft, h.ledIndex, h.cfg] at notStop
    exact .inr (.inr ⟨rfl, h.refill due (by omega)⟩)
  | reset => exact absurd rfl notReset

/-- The step that ends the transmission is the STOP of the refill past the phantom half (R106). -/
theorem Sending.ends {last : Instr} {t : State} (h : Sending c fb w sent served v) (run : exec last v = .next t)
    (notReset : last ≠ .reset) (stopped : t.active = false) :
    last = refillAt served ∧ served = c.R + c.N + 1 ∧ 24 * (served + 1) ≤ sent ∧ t = v.stop := by
  cases exec_completes run with
  | passive _ same => simp [same.active, h.busy] at stopped
  | refusedStart _ same => simp [same.active, h.busy] at stopped
  | start => simp at stopped
  | emit => simp [h.busy] at stopped
  | refill k busy =>
    obtain ⟨⟨-, pending⟩, -⟩ := (exec_refill_next_iff k).1 run
    obtain ⟨due, rfl⟩ := (h.pending k).1 pending
    obtain ⟨left, led⟩ := (State.refill_active_eq_false_iff busy _).1 stopped
    have goesOn := h.goesOn
    have past : served = c.R + c.N + 1 := by rw [h.ledIndex, h.cfg] at led; omega
    exact ⟨rfl, past, due, State.refill_eq_stop left led _⟩
  | reset => exact absurd rfl notReset

/-! ### Along a schedule (R110, R111) -/

/-- Whether an instruction is one of RFL's. -/
def isRefill (i : Instr) : Bool := i == .refillHt || i == .refillTc

theorem isRefill_refillAt (m : Nat) : isRefill (refillAt m) = true := by
  rw [refillAt_eq]
  split_ifs <;> rfl

/-- A passive command is neither SER's nor RFL's. -/
theorem PassiveCommand.not_own {i : Instr} (hi : PassiveCommand i) : i ≠ .emit ∧ isRefill i = false := by
  cases hi <;> exact ⟨nofun, rfl⟩

/-- A refill is no EMIT. -/
theorem refillAt_ne_emit (m : Nat) : refillAt m ≠ .emit := by
  rw [refillAt_eq]
  split_ifs <;> exact nofun

/-- A schedule that ends running and without a fault has sent one unit an EMIT, and its refills are the next in turn. -/
theorem Sending.exec_schedule {sched : List Instr} {u : State} (h : Sending c fb w sent served v)
    (run : execAll sched v = .next u) (noStart : Instr.transmit ∉ sched) (noReset : Instr.reset ∉ sched)
    (running : u.active = true) (clean : u.noFault = true) :
    ∃ more, Sending c fb w (sent + sched.count .emit) (served + more) u ∧
      sched.filter isRefill = (List.range' served more).map refillAt := by
  induction sched generalizing v sent served with
  | nil => cases run; exact ⟨0, h, rfl⟩
  | cons i is ih =>
    obtain ⟨hstart, noStart'⟩ := not_or.1 (mt List.mem_cons.2 noStart)
    obtain ⟨hreset, noReset'⟩ := not_or.1 (mt List.mem_cons.2 noReset)
    obtain ⟨v', hv', rest⟩ := execAll_cons_next_iff.1 run
    obtain ⟨running', clean', -⟩ := execAll_running_back rest noStart' noReset' running clean
    obtain ⟨hi, h⟩ | ⟨rfl, h⟩ | ⟨rfl, h⟩ := h.step hv' (Ne.symm hstart) (Ne.symm hreset) running' clean'
    · obtain ⟨more, h, refills⟩ := ih h rest noStart' noReset'
      obtain ⟨notEmit, notRefill⟩ := hi.not_own
      exact ⟨more, by rwa [List.count_cons_of_ne notEmit], by rwa [List.filter_cons_of_neg (by simp [notRefill])]⟩
    · obtain ⟨more, h, refills⟩ := ih h rest noStart' noReset'
      refine ⟨more, ?_, by rwa [List.filter_cons_of_neg (by decide)]⟩
      rwa [List.count_cons_self, ← Nat.add_assoc, Nat.add_right_comm]
    · obtain ⟨more, h, refills⟩ := ih h rest noStart' noReset'
      refine ⟨more + 1, ?_, ?_⟩
      · rwa [List.count_cons_of_ne (refillAt_ne_emit served), ← Nat.add_assoc, Nat.add_right_comm]
      · rw [List.filter_cons_of_pos (isRefill_refillAt served), refills, List.range'_succ, List.map_cons]

/-- At the STOP the stream is R110's, with the units sent past the last pixel's half as its phantom units. -/
theorem Sending.wire_eq {j : Nat} (h : Sending c fb w (24 * (c.R + 2 + c.N) + j) served v) :
    v.wire = w ++ .start :: (streamUnits c fb j).map .unit := by
  rw [h.wire, streamUnits_eq_map_range h.frame]

end

/-- A fault-free transmission up to its STOP: `R + N + 1` refills in turn, the EMITs of the stream and of `j` phantom
units, and the refill that finds nothing left. -/
theorem FaultFreeTransmission.sending {s : State} {body : List Instr} {u : State} {last : Instr} {t : State}
    (h : FaultFreeTransmission s body u last t) : ∃ j, j ≤ 23 ∧
      body.count .emit = 24 * (s.cfg.R + 2 + s.cfg.N) + j ∧
      Sending s.cfg s.fb s.wire (24 * (s.cfg.R + 2 + s.cfg.N) + j) (s.cfg.R + s.cfg.N + 1) u ∧
      body.filter isRefill = (List.range (s.cfg.R + s.cfg.N + 1)).map refillAt ∧
      last = refillAt (s.cfg.R + s.cfg.N + 1) ∧ t = u.stop := by
  have clean := State.noFault_of_le (exec_keeps_faults h.stops h.noReset.2) h.noFault
  obtain ⟨v, hv, run, -, clean_v, -⟩ := FaultFreeTransmission.during (before := []) h
  rw [execAll_cons_next_iff, exec_transmit_idle h.idle] at hv
  obtain ⟨_, start, hv⟩ := hv
  cases start
  cases hv
  obtain ⟨served, sending, refills⟩ :=
    (Sending.start h.frame clean_v).exec_schedule run h.noSecondStart h.noReset.1 h.running clean
  rw [Nat.zero_add, Nat.zero_add] at sending
  obtain ⟨rfl, rfl, due, rfl⟩ := sending.ends h.stops h.noReset.2 h.stopped
  have ahead := sending.notAhead
  obtain ⟨j, count⟩ := Nat.exists_eq_add_of_le (show 24 * (s.cfg.R + 2 + s.cfg.N) ≤ body.count .emit by omega)
  rw [count] at sending
  exact ⟨j, by omega, count, sending, by rw [refills, List.range_eq_range'], rfl, rfl⟩

/-- Settles O57: at the STOP the wire holds the stream's units, one for each EMIT. -/
theorem streamContract : Obligations.StreamContract := by
  intro s body u last t h
  obtain ⟨j, hj, -, sending, -, -, rfl⟩ := h.sending
  exact ⟨j, hj, sending.wire_eq⟩

/-- Settles O58: the refill that stops is the last in turn, and no EMIT. -/
theorem transmissionCounts : Obligations.TransmissionCounts := by
  intro s body u last t h
  obtain ⟨j, hj, count, sending, refills, rfl, rfl⟩ := h.sending
  have emits : (body ++ [refillAt (s.cfg.R + s.cfg.N + 1)]).count .emit = body.count .emit := by
    rw [List.count_append, List.count_singleton, if_neg (by simp [refillAt_ne_emit]), Nat.add_zero]
  refine ⟨⟨j, hj, by rw [emits]; omega, ?_⟩, ?_, ?_, ?_, rfl, rfl⟩
  · rw [emits, count, State.stop_wire, sending.wire]
    simp [Nat.add_assoc, Nat.add_comm]
  · calc (body ++ [refillAt (s.cfg.R + s.cfg.N + 1)]).filter isRefill
        = (List.range (s.cfg.R + s.cfg.N + 2)).map refillAt := by
          rw [List.filter_append, refills, List.filter_singleton, isRefill_refillAt, List.range_succ (n := _ + 1),
            List.map_append]
          rfl
      _ = _ := List.map_congr_left fun m _ => refillAt_eq m
  · rw [State.stop_ledIndex, sending.ledIndex]
    omega
  · rw [State.stop_resetLeft, sending.resetLeft]
    omega

/-! ### A schedule that completes a transmission -/

/-- The first `n` rounds of the eager schedule: SER sends a half, and RFL services its event at once. -/
def eagerRounds (n : Nat) : List Instr :=
  (List.range n).flatMap fun m => List.replicate 24 .emit ++ [refillAt m]

/-- The eager schedule of a transmission up to its STOP, with `j` phantom units. -/
def eagerSchedule (c : Config) (j : Nat) : List Instr :=
  eagerRounds (c.R + c.N + 1) ++ List.replicate (24 + j) .emit

theorem mem_eagerSchedule {c : Config} {j : Nat} {i : Instr} (h : i ∈ eagerSchedule c j) :
    i = .emit ∨ ∃ m, i = refillAt m := by
  simp only [eagerSchedule, eagerRounds, List.mem_append, List.mem_flatMap, List.mem_replicate,
    List.mem_singleton] at h
  obtain ⟨m, -, ⟨-, rfl⟩ | rfl⟩ | ⟨-, rfl⟩ := h
  · exact .inl rfl
  · exact .inr ⟨m, rfl⟩
  · exact .inl rfl

theorem refillAt_ne_transmit_reset (m : Nat) : refillAt m ≠ .transmit ∧ refillAt m ≠ .reset := by
  rw [refillAt_eq]
  split_ifs <;> exact ⟨nofun, nofun⟩

section
variable {c : Config} {fb : Memory} {w : List Record} {sent served : Nat} {v : State}

/-- EMITs in a row, as long as they do not run into the half that the next refill is to write. -/
theorem Sending.emits (h : Sending c fb w sent served v) {n : Nat} (room : sent + n < 24 * (served + 2)) :
    ∃ u, execAll (List.replicate n .emit) v = .next u ∧ Sending c fb w (sent + n) served u := by
  induction n generalizing v sent with
  | zero => exact ⟨v, rfl, h⟩
  | succ n ih =>
    obtain ⟨u, run, hu⟩ := ih (h.sendUnit (by omega)) (by omega)
    refine ⟨u, execAll_cons_next_iff.2 ⟨_, exec_emit_busy h.busy, run⟩, ?_⟩
    rwa [Nat.add_assoc, Nat.add_comm 1] at hu

/-- The refill that is due has a step. -/
theorem Sending.exec_refillAt (h : Sending c fb w sent served v) (due : 24 * (served + 1) ≤ sent) :
    exec (refillAt served) v = .next (v.refill (turnHalf served)) :=
  exec_refill_pending h.busy ((h.pending _).2 ⟨due, rfl⟩)

/-- Each eager round sends one half and rewrites it. -/
theorem Sending.exec_eagerRounds (h : Sending c fb w 0 0 v) {n : Nat} (hn : n ≤ c.R + c.N + 1) :
    ∃ u, execAll (eagerRounds n) v = .next u ∧ Sending c fb w (24 * n) n u := by
  induction n with
  | zero => exact ⟨v, rfl, h⟩
  | succ n ih =>
    obtain ⟨u, run, hu⟩ := ih (by omega)
    obtain ⟨u', run', hu'⟩ := hu.emits (n := 24) (by omega)
    refine ⟨_, ?_, hu'.refill le_rfl (by omega)⟩
    simp only [eagerRounds, List.range_succ, List.flatMap_append, List.flatMap_singleton]
    exact execAll_append_next_iff.2 ⟨u, run, execAll_append_next_iff.2 ⟨u', run',
      execAll_cons_next_iff.2 ⟨_, hu'.exec_refillAt le_rfl, rfl⟩⟩⟩

/-- The eager schedule leaves the STOP to do, `j` phantom units after the last event. -/
theorem Sending.exec_eagerSchedule (h : Sending c fb w 0 0 v) {j : Nat} (hj : j ≤ 23) :
    ∃ u, execAll (eagerSchedule c j) v = .next u ∧
      Sending c fb w (24 * (c.R + 2 + c.N) + j) (c.R + c.N + 1) u := by
  obtain ⟨u, run, hu⟩ := h.exec_eagerRounds le_rfl
  obtain ⟨u', run', hu'⟩ := hu.emits (n := 24 + j) (by omega)
  have sent : 24 * (c.R + c.N + 1) + (24 + j) = 24 * (c.R + 2 + c.N) + j := by omega
  exact ⟨u', execAll_append_next_iff.2 ⟨u, run, run'⟩, sent ▸ hu'⟩

/-- With every refill but the last done, the next one is the STOP. -/
theorem Sending.exec_refillAt_stop (h : Sending c fb w sent (c.R + c.N + 1) v)
    (due : 24 * (c.R + c.N + 2) ≤ sent) : exec (refillAt (c.R + c.N + 1)) v = .next v.stop := by
  rw [h.exec_refillAt due, State.refill_eq_stop]
  · rw [h.resetLeft]; omega
  · rw [h.ledIndex, h.cfg]; omega

end

/-- Settles O59: the eager schedule, with `j` EMITs after the last event before its refill stops. -/
theorem everyTransmissionCanFinish : Obligations.EveryTransmissionCanFinish := by
  intro s j idle clean frame hj
  obtain ⟨u, run, sending⟩ := (Sending.start frame clean).exec_eagerSchedule hj
  refine ⟨eagerSchedule s.cfg j, u, refillAt (s.cfg.R + s.cfg.N + 1), u.stop, ?_, sending.wire_eq⟩
  exact {
    idle := idle
    frame := frame
    runs := execAll_cons_next_iff.2 ⟨_, exec_transmit_idle idle, run⟩
    noSecondStart := fun mem => by
      obtain h | ⟨m, h⟩ := mem_eagerSchedule mem
      · cases h
      · exact (refillAt_ne_transmit_reset m).1 h.symm
    noReset := by
      refine ⟨fun mem => ?_, (refillAt_ne_transmit_reset _).2⟩
      obtain h | ⟨m, h⟩ := mem_eagerSchedule mem
      · cases h
      · exact (refillAt_ne_transmit_reset m).2 h.symm
    running := sending.busy
    stops := sending.exec_refillAt_stop (by omega)
    stopped := rfl
    noFault := sending.clean }

end Sys2Proof.Machine
end

section
/-! SUPPORT. Exceptions (60_exceptions.md): the STATUS bit of each fault (R130), and the one fault that an instruction
raises in a state (R132 to R135, R141). -/

namespace Sys2Proof.Machine

/-! ### The STATUS bit of each fault (R130) -/

/-- A field of one bit, read as that bit (R14). -/
theorem getLsbD_of_field_eq_ofBool {w : BitVec 32} {n : Nat} {b : Bool}
    (h : w.extractLsb' n 1 = BitVec.ofBool b) : w.getLsbD n = b := by
  simpa using congrArg (BitVec.getLsbD · 0) h

/-- The STATUS bit of a fault shows its sticky bit (R32, R130). -/
theorem State.status_getLsbD_statusBit (s : State) (f : FaultBit) :
    s.status.getLsbD f.statusBit = s.hasFault f := by
  obtain ⟨-, -, -, -, -, -, -, startBusy, fbWriteBusy, underrun, illegalCmd, -⟩ := statusLayout.1 s
  cases f with
  | startBusy => exact getLsbD_of_field_eq_ofBool startBusy
  | fbWriteBusy => exact getLsbD_of_field_eq_ofBool fbWriteBusy
  | underrun => exact getLsbD_of_field_eq_ofBool underrun
  | illegalCmd => exact getLsbD_of_field_eq_ofBool illegalCmd

/-- The codes are 1 to 4 (R130). -/
theorem FaultBit.code_bounds (f : FaultBit) : 1 ≤ f.code ∧ f.code ≤ 4 := by cases f <;> decide

/-- Settles O16: the STATUS bits are the codes plus 7, and the layout of STATUS has each fault at its bit. -/
theorem faultCodesAreStatusBits : Obligations.FaultCodesAreStatusBits := by
  refine ⟨rfl, rfl, rfl, rfl, fun s f => ?_⟩
  obtain ⟨lower, upper⟩ := f.code_bounds
  have bit : f.statusBit = f.code + 7 := rfl
  exact ⟨by omega, by omega, by omega, s.status_getLsbD_statusBit f⟩

/-! ### The fault an instruction raises (R132 to R135, R141) -/

/-- The fault that an instruction raises in a state, if it raises one: a function, since it never raises two (R141). -/
def raisedFault (i : Instr) (s : State) : Option FaultBit :=
  match i with
  | .illegal _ => some .illegalCmd
  | .transmit => if s.active then some .startBusy else none
  | .wrpix idx _ => if idx.toNat < s.cfg.N ∧ s.active = true then some .fbWriteBusy else none
  | .emit =>
    if (s.rp.val = 23 ∨ s.rp.val = 47) ∧ (s.pendHt = true ∨ s.pendTc = true) then some .underrun else none
  | .rdpix _ | .rdstat | .refillHt | .refillTc | .reset => none

theorem raisedFault_refillInstr (k : Half) (s : State) : raisedFault (refillInstr k) s = none := by cases k <;> rfl

/-- A clear fault bit is set by a step exactly if the step's instruction raises that fault. -/
theorem exec_sets_fault_iff {i : Instr} {s t : State} {f : FaultBit} (h : exec i s = .next t)
    (hclear : s.hasFault f = false) : t.hasFault f = true ↔ raisedFault i s = some f := by
  obtain ⟨rfl, busy, rfl⟩ | ⟨rfl, idle, rfl⟩ | ⟨idx, p, rfl, out, rfl⟩ | ⟨idx, p, rfl, inside, busy, rfl⟩ |
    ⟨idx, p, rfl, inside, idle, rfl⟩ | ⟨idx, rfl, -, rfl⟩ | ⟨idx, rfl, -, rfl⟩ | ⟨rfl, rfl⟩ | ⟨w, rfl, rfl⟩ |
    ⟨rfl, -, rfl⟩ | ⟨k, rfl, -, -, rfl⟩ | ⟨rfl, rfl⟩ := exec_next_cases h
  · simp [raisedFault, hclear, busy]
  · simp [raisedFault, hclear, idle]
  · simp [raisedFault, hclear, out]
  · simp [raisedFault, hclear, inside, busy]
  · simp [raisedFault, hclear, idle]
  · simp [raisedFault, hclear]
  · simp [raisedFault, hclear]
  · simp [raisedFault, hclear]
  · simp [raisedFault, hclear]
  · cases f <;> simp [raisedFault, hclear, -ite_eq_left_iff]
  · simp [raisedFault_refillInstr, hclear]
  · simp [raisedFault]

section
variable {i : Instr} {s : State}

/-- The one cause of F_ILLEGAL_CMD (R132). -/
theorem raisedFault_eq_illegalCmd_iff : raisedFault i s = some .illegalCmd ↔ ∃ w, i = .illegal w := by
  cases i <;> simp [raisedFault]

/-- The one cause of F_START_BUSY (R133). -/
theorem raisedFault_eq_startBusy_iff : raisedFault i s = some .startBusy ↔ i = .transmit ∧ s.active = true := by
  cases i <;> simp [raisedFault]

/-- The one cause of F_FB_WRITE_BUSY; the bounds check comes first (R81, R134). -/
theorem raisedFault_eq_fbWriteBusy_iff :
    raisedFault i s = some .fbWriteBusy ↔ ∃ idx p, i = .wrpix idx p ∧ idx.toNat < s.cfg.N ∧ s.active = true := by
  cases i <;> simp [raisedFault]

/-- The one cause of F_UNDERRUN (R135). -/
theorem raisedFault_eq_underrun_iff :
    raisedFault i s = some .underrun ↔
      i = .emit ∧ (s.rp.val = 23 ∨ s.rp.val = 47) ∧ (s.pendHt = true ∨ s.pendTc = true) := by
  cases i <;> simp [raisedFault, -ite_eq_left_iff]

end

/-- Settles O40: a step sets a clear bit exactly if its instruction raises that fault, and it raises one at most. -/
theorem eachFaultHasItsOneCause : Obligations.EachFaultHasItsOneCause := by
  intro i s t f h hclear
  have sets : ∀ {g : FaultBit}, s.hasFault g = false → (t.hasFault g = true ↔ raisedFault i s = some g) :=
    exec_sets_fault_iff h
  refine ⟨(sets hclear).trans ?_, fun hset => ?_⟩
  · cases f with
    | illegalCmd => exact raisedFault_eq_illegalCmd_iff
    | startBusy => exact raisedFault_eq_startBusy_iff
    | fbWriteBusy => exact raisedFault_eq_fbWriteBusy_iff
    | underrun => exact raisedFault_eq_underrun_iff
  · have raised : raisedFault i s = some f := (sets hclear).1 hset
    refine ⟨?_, ?_, fun g hg hgset => Option.some.inj (raised.symm.trans ((sets hg).1 hgset))⟩
    · rintro rfl
      cases raised
    · rintro rfl
      cases raised

end Sys2Proof.Machine
end

section
/-! SUPPORT. Reset and hazards (70_reset_and_hazards.md): what a RESET leaves (R160, R161), a drawn pixel that nothing
writes (R162), and the shortest reset interval that meets the latch threshold (R171). -/

namespace Sys2Proof

/-! ### The reset interval (R10, R171) -/

/-- The reset interval is `R + 2` times a half's 24 units (R10). -/
theorem resetInterval_eq (R tUnit : Nat) : (48 + 24 * R) * tUnit = (R + 2) * (24 * tUnit) := by ring

/-- Settles O13: the interval exceeds `T_LATCH` if `R + 2` halves exceed the whole halves that `T_LATCH` covers. -/
theorem minimalResetRefillsMeetTheLatch : Obligations.MinimalResetRefillsMeetTheLatch := by
  intro p sub_pos
  have half_pos : 0 < 24 * p.timing.tUnit := by unfold Timing.tUnit; omega
  rw [resetInterval_eq, ← Nat.div_lt_iff_lt_mul half_pos, Timing.minResetRefills]
  omega

end Sys2Proof

namespace Sys2Proof.Machine

/-! ### A pixel that nothing writes (R162) -/

/-- An instruction that is no RESET and no WRPIX of index `n` leaves pixel `n`. -/
theorem exec_pixel_of_not_written {i : Instr} {s t : State} {n : Nat} (h : exec i s = .next t) (hreset : i ≠ .reset)
    (unwritten : ∀ idx p, i = .wrpix idx p → idx.toNat ≠ n) : t.pixel n = s.pixel n := by
  obtain ⟨-, -, epoch, -⟩ := instructionsLeaveTheModelsOwnFields i s t h
  obtain ⟨-, fb⟩ | ⟨idx, p, hi, others⟩ := frameBufferIsWrittenOnlyByWrpixAndReset i s t h hreset
  · exact State.pixel_congr fb (epoch hreset) n
  · exact others n (unwritten idx p hi).symm

/-- A schedule without RESET and without a WRPIX of index `n` leaves pixel `n`. -/
theorem execAll_pixel_of_not_written {sched : List Instr} {s t : State} {n : Nat} (h : execAll sched s = .next t)
    (noReset : Instr.reset ∉ sched) (unwritten : ∀ idx p, Instr.wrpix idx p ∈ sched → idx.toNat ≠ n) :
    t.pixel n = s.pixel n := by
  induction sched generalizing s with
  | nil => cases h; rfl
  | cons i is ih =>
    obtain ⟨hreset, noReset⟩ := not_or.1 (mt List.mem_cons.2 noReset)
    obtain ⟨u, hu, h⟩ := execAll_cons_next_iff.1 h
    have first : u.pixel n = s.pixel n := exec_pixel_of_not_written hu (Ne.symm hreset) fun idx p hi =>
      unwritten idx p (List.mem_cons.2 (.inl hi.symm))
    have rest : t.pixel n = u.pixel n := ih h noReset fun idx p hm => unwritten idx p (List.mem_cons_of_mem i hm)
    exact rest.trans first

/-- Settles O49: no instruction between writes the pixel, whatever drew it. -/
theorem drawnPixelHoldsUntilWritten : Obligations.DrawnPixelHoldsUntilWritten :=
  fun _ _ _ _ _ _ run noReset unwritten => execAll_pixel_of_not_written run noReset unwritten

/-! ### What a RESET leaves (R160, R161) -/

/-- STATUS after a RESET: each of its fields is zero (R161). -/
theorem State.status_clearAll_record (s : State) : (s.clearAll.record .reset).status = 0#32 := by
  have idle : (s.clearAll.record .reset).phase = .idle := State.phase_of_idle rfl
  exact BitVec.eq_of_toNat_eq (by simp [State.status_toNat, idle, Phase.code])

/-- Settles O47: the elements as `clearAll` leaves them, and the outputs that follow from them. -/
theorem resetFollowsItsRule : Obligations.ResetFollowsItsRule := by
  intro s
  have faults (f : FaultBit) : (s.clearAll.record .reset).hasFault f = false := by simp
  have length : (drawnFrame s.cfg.N (s.epoch + 1)).length = s.cfg.N := (Memory.wf_iff ..).1 (drawnFrame_wf ..)
  have drawn (i : Nat) : (s.clearAll.record .reset).pixel i = Config.fbDraw (s.epoch + 1) i :=
    State.pixel_of_drawn (n := s.cfg.N) rfl i
  obtain ⟨low, -⟩ := outputsAndPhaseFollowTheState (s.clearAll.record .reset)
  exact ⟨_, exec_reset s, rfl, rfl, rfl, zeroBuf_unit, rfl, rfl, rfl, rfl, faults, length, fun i _ => drawn i, rfl,
    rfl, s.status_clearAll_record, rfl, low rfl⟩

end Sys2Proof.Machine
end
